-- ==== Sys2Proof/Word.lean ====
section
/-! DEFINITION. The widths of the MIDI serial framer: wire bytes, 7-bit data values and 4-bit fields
(spec/00_scope.md R7, R8; spec/30_encoding.md R70). -/

namespace Sys2Proof

/-- A wire byte: 8 bits, bit 7 the status flag (R7, R8, R70). -/
abbrev Byte := BitVec 8

/-- The 7-bit value a data byte carries, 0..127 (R7, R70). -/
abbrev Data7 := BitVec 7

/-- A 4-bit field: a channel 0..15 or the kind of an event or a command (R7, R80, R81). -/
abbrev Nibble := BitVec 4

end Sys2Proof
end

