-- ==== Sys2Proof/Config.lean ====
section
/-! DEFINITION. The implementation parameters of spec/00_scope.md R6: `N_PORTS`, `SYSEX_CAP` and
`EXT_CC`. The spec leaves all three OPEN (spec/92_eei_decisions.md D39 to D41), so no value is chosen
here: a configuration is carried by the machine's state and every statement holds for each of them.
`IDLE_INTERVAL`, `RX_WAIT` and `EV_WAIT` are informative (D42): no rule reads them, so they are not here. -/

namespace Sys2Proof

/-- The parameters of R6. Their legal ranges are the type's: `N_PORTS` is one more than a number
below 16 (1..16) and `SYSEX_CAP` is three more than a natural number (an integer at least 3, D33), so
an illegal configuration cannot be written down. R33: configuration, which no step writes. -/
structure Config where
  /-- `N_PORTS - 1`. -/
  extraPorts : Fin 16
  /-- `SYSEX_CAP - 3`. -/
  extraCap : Nat
  /-- `EXT_CC`: the encoder accepts the 14-bit controller, NRPN and RPN commands. -/
  extCc : Bool
  deriving DecidableEq, Repr

/-- `N_PORTS`, the logical port count, 1..16 (R6). -/
def Config.nPorts (c : Config) : Nat := c.extraPorts.val + 1

/-- `SYSEX_CAP`, the SysEx reassembly buffer's size in bytes, at least 3 (R6, R23). -/
def Config.sysexCap (c : Config) : Nat := c.extraCap + 3

/-- The configuration with the given parameters, for legal ones (1..16 ports, capacity at least 3). -/
def Config.ofParams (nPorts sysexCap : Nat) (extCc : Bool) : Config :=
  { extraPorts := Fin.ofNat 16 (nPorts - 1), extraCap := sysexCap - 3, extCc := extCc }

/-- The configuration of `State.reset`: `N_PORTS = 1`, `SYSEX_CAP = 1024`, `EXT_CC = false`, the
values spec/95_test_vectors.md (Conventions) writes as `—`. DESIGN CHOICE (notes/assumptions/1.md), unsafe:
the spec leaves the three parameters open, so a claim that rests on these values holds of this
configuration only. -/
def Config.standard : Config := Config.ofParams 1 1024 false

end Sys2Proof
end

