-- ==== Sys2Proof/Syntax.lean ====
section
/-! DEFINITION. The instructions of the block: one constructor for each row of spec/opcode_table.json.
The block fetches no instructions (spec/10_state.md R35); an "instruction" is one input of one agent
(R21): a wire byte of DEC, a command record of ENC, or a control event of either. -/

namespace Sys2Proof

/-- One input, decoded. `dec…` are DEC's wire bytes (spec/30_encoding.md R71), `enc…` ENC's commands
(R83), `ctlDec…` and `ctlEnc…` the control events (R84). A channel is the 4-bit field of a status byte;
`d1` and `d2` are the command's 8-bit data fields; `val` (16-bit two's complement), `param` (16 bits
unsigned) and `port` (5 bits) are the integers of R81, whose ranges `Instr.wellFormed` checks. -/
inductive Instr where
  -- DEC: channel-voice status bytes (R103 to R109)
  | decNoteOffStatus (chan : Nibble)
  | decNoteOnStatus (chan : Nibble)
  | decPolyPressureStatus (chan : Nibble)
  | decControllerStatus (chan : Nibble)
  | decProgramChangeStatus (chan : Nibble)
  | decChannelPressureStatus (chan : Nibble)
  | decPitchBendStatus (chan : Nibble)
  -- DEC: system-exclusive and system-common status bytes (R140, R120 to R125, R142 and R143)
  | decSysexStart
  | decQuarterFrame
  | decSongPosition
  | decSongSelect
  | decUndefinedF4
  | decPortSelect
  | decTuneRequest
  | decEox
  -- DEC: real-time bytes (R111 to R118)
  | decClock
  | decTick
  | decStart
  | decContinue
  | decStop
  | decUndefinedFD
  | decActiveSensing
  | decReset
  -- DEC: data bytes (R126)
  | decData (value : Data7)
  -- ENC: channel-voice commands (R163 to R169)
  | encNoteOff (chan : Nibble) (d1 d2 : Byte) (port : Nat)
  | encNoteOn (chan : Nibble) (d1 d2 : Byte) (port : Nat)
  | encPolyPress (chan : Nibble) (d1 d2 : Byte) (port : Nat)
  | encControl (chan : Nibble) (d1 d2 : Byte) (port : Nat)
  | encProgram (chan : Nibble) (d1 : Byte) (port : Nat)
  | encChanPress (chan : Nibble) (d1 : Byte) (port : Nat)
  | encPitchBend (chan : Nibble) (val : Int) (port : Nat)
  -- ENC: system-common commands (R171 to R174)
  | encQFrame (val : Int) (port : Nat)
  | encSongPos (val : Int) (port : Nat)
  | encSongSel (val : Int) (port : Nat)
  | encTuneReq (port : Nat)
  -- ENC: real-time commands (R176 to R182)
  | encClock (port : Nat)
  | encTick (port : Nat)
  | encStart (port : Nat)
  | encContinue (port : Nat)
  | encStop (port : Nat)
  | encActSense (port : Nat)
  | encSysReset (port : Nat)
  -- ENC: SysEx and the extended controller commands (R183, R185 to R187)
  | encSysEx (payload : List Byte) (port : Nat)
  | encCc14 (chan : Nibble) (param : Nat) (val : Int) (port : Nat)
  | encNrpn (chan : Nibble) (param : Nat) (val : Int) (port : Nat)
  | encRpn (chan : Nibble) (param : Nat) (val : Int) (port : Nat)
  -- control events of DEC (R220 to R223, R229) and of ENC (R224 to R229)
  | ctlDecReset
  | ctlDecRxError
  | ctlDecInRouteReset
  | ctlDecDstatClear
  | ctlDecStatusRead
  | ctlEncReset
  | ctlEncWriteError
  | ctlEncIdleExpired
  | ctlEncSubsEdge
  | ctlEncEstatClear
  | ctlEncStatusRead
  deriving DecidableEq, Repr

end Sys2Proof
end

