-- ==== Sys2Proof/WellFormed.lean ====
section
/-! DEFINITION. The well-formed instructions: every operand in the range spec/30_encoding.md R81 gives its
field of the command record. A wire byte and a control event have no ill-formed operand, and a SysEx
payload is a list of bytes of any length (R81, R183). -/

namespace Sys2Proof

/-- `port` is a 5-bit field, 0..31 (R81). Whether the port exists is `Accept`'s question (R161). -/
def portInField (port : Nat) : Bool := decide (port < 32)

/-- `val` is a 16-bit two's complement field, -32768..32767 (R81). -/
def valInField (val : Int) : Bool := decide (-32768 ≤ val) && decide (val ≤ 32767)

/-- `param` is a 16-bit unsigned field (R81). -/
def paramInField (param : Nat) : Bool := decide (param < 65536)

/-- Every operand fits the field that carries it (R81). -/
def Instr.wellFormed : Instr → Bool
  | .decNoteOffStatus _ | .decNoteOnStatus _ | .decPolyPressureStatus _ | .decControllerStatus _
  | .decProgramChangeStatus _ | .decChannelPressureStatus _ | .decPitchBendStatus _
  | .decSysexStart | .decQuarterFrame | .decSongPosition | .decSongSelect | .decUndefinedF4
  | .decPortSelect | .decTuneRequest | .decEox
  | .decClock | .decTick | .decStart | .decContinue | .decStop | .decUndefinedFD
  | .decActiveSensing | .decReset | .decData _ => true
  | .encNoteOff _ _ _ port | .encNoteOn _ _ _ port | .encPolyPress _ _ _ port
  | .encControl _ _ _ port | .encProgram _ _ port | .encChanPress _ _ port => portInField port
  | .encPitchBend _ val port => valInField val && portInField port
  | .encQFrame val port | .encSongPos val port | .encSongSel val port =>
      valInField val && portInField port
  | .encTuneReq port | .encClock port | .encTick port | .encStart port | .encContinue port
  | .encStop port | .encActSense port | .encSysReset port => portInField port
  | .encSysEx _ port => portInField port
  | .encCc14 _ param val port | .encNrpn _ param val port | .encRpn _ param val port =>
      paramInField param && valInField val && portInField port
  | .ctlDecReset | .ctlDecRxError | .ctlDecInRouteReset | .ctlDecDstatClear | .ctlDecStatusRead
  | .ctlEncReset | .ctlEncWriteError | .ctlEncIdleExpired | .ctlEncSubsEdge | .ctlEncEstatClear
  | .ctlEncStatusRead => true

end Sys2Proof
end

