-- ==== Sys2Proof/Decode.lean ====
section
/-! DEFINITION. The fields of a byte; the block's input languages and what each input decodes to: the wire byte
(spec/30_encoding.md R70, R71), the command record and its selector (R81 to R83) and the control codes
(R84); then the encoder of instructions into inputs, and the reading of an opcode-table word. -/

namespace Sys2Proof

/-! ### Fields of a byte -/

/-- `b[7:4]`, the "high nibble" of R8. -/
def highNibble (b : Byte) : Nibble := b.extractLsb' 4 4

/-- `b[3:0]`, the "low nibble" of R8. -/
def lowNibble (b : Byte) : Nibble := b.extractLsb' 0 4

/-- `(hi << 4) | lo`: the byte of two nibbles (R73, R162). -/
def byteOf (hi lo : Nibble) : Byte := hi ++ lo

/-! ### Inputs -/

/-- The command record, field for field and width for width as R81 lays it out. -/
structure Command where
  cls : BitVec 3
  kind : Nibble
  chan : Nibble
  d1 : Byte
  d2 : Byte
  val : BitVec 16
  param : BitVec 16
  payload : List Byte
  port : BitVec 5
  deriving DecidableEq, Repr

/-- The record of class `cls` and kind `kind` whose other fields are all zero. -/
def Command.bare (cls : BitVec 3) (kind : Nibble) : Command :=
  { cls := cls, kind := kind, chan := 0, d1 := 0, d2 := 0, val := 0, param := 0, payload := [], port := 0 }

/-- `sel = cls * 16 + kind`, 7 bits (R82). -/
def Command.sel (c : Command) : BitVec 7 := c.cls ++ c.kind

/-- One input of one agent (R21): a wire byte of DEC, a command of ENC, or a control event of either,
given by its code (R84; the table's mask gives a code three bits). A wire byte is 8 bits wide, so the
mask of R101 is the identity. -/
inductive Input where
  | wire (b : Byte)
  | command (c : Command)
  | decControl (code : BitVec 3)
  | encControl (code : BitVec 3)
  deriving DecidableEq, Repr

/-- Why an input is no row of the opcode table. -/
inductive DecodeError where
  /-- A selector outside the table of R83: the command is refused by R86 and R189. -/
  | unlistedSelector (sel : BitVec 7)
  /-- A DEC control code outside R84 (5..7). -/
  | reservedDecControl (code : BitVec 3)
  /-- An ENC control code outside R84 (6, 7). -/
  | reservedEncControl (code : BitVec 3)
  deriving DecidableEq, Repr

/-! ### Wire bytes -/

/-- The bytes `0xF0`..`0xFF` by their low nibble (R71). -/
def decodeSystemByte (low : Nibble) : Instr :=
  match low with
  | 0x0#4 => .decSysexStart
  | 0x1#4 => .decQuarterFrame
  | 0x2#4 => .decSongPosition
  | 0x3#4 => .decSongSelect
  | 0x4#4 => .decUndefinedF4
  | 0x5#4 => .decPortSelect
  | 0x6#4 => .decTuneRequest
  | 0x7#4 => .decEox
  | 0x8#4 => .decClock
  | 0x9#4 => .decTick
  | 0xA#4 => .decStart
  | 0xB#4 => .decContinue
  | 0xC#4 => .decStop
  | 0xD#4 => .decUndefinedFD
  | 0xE#4 => .decActiveSensing
  | _ => .decReset

/-- The status bytes by their high nibble (R71); what is left for the last line is `0xF`. -/
def decodeStatusByte (b : Byte) : Instr :=
  match highNibble b with
  | 0x8#4 => .decNoteOffStatus (lowNibble b)
  | 0x9#4 => .decNoteOnStatus (lowNibble b)
  | 0xA#4 => .decPolyPressureStatus (lowNibble b)
  | 0xB#4 => .decControllerStatus (lowNibble b)
  | 0xC#4 => .decProgramChangeStatus (lowNibble b)
  | 0xD#4 => .decChannelPressureStatus (lowNibble b)
  | 0xE#4 => .decPitchBendStatus (lowNibble b)
  | _ => decodeSystemByte (lowNibble b)

/-- A wire byte is a status byte if bit 7 is set and a data byte otherwise (R70). Every byte decodes
(R85). -/
def decodeWire (b : Byte) : Instr :=
  if b.getLsbD 7 then decodeStatusByte b else .decData (b.setWidth 7)

/-! ### Commands -/

/-- The accepted selectors: the table of R83, in its order. -/
def acceptedSelectors : List (BitVec 7) :=
  [0x08#7, 0x09#7, 0x0A#7, 0x0B#7, 0x0C#7, 0x0D#7, 0x0E#7,
   0x11#7, 0x12#7, 0x13#7, 0x16#7,
   0x28#7, 0x29#7, 0x2A#7, 0x2B#7, 0x2C#7, 0x2E#7, 0x2F#7,
   0x30#7, 0x40#7, 0x41#7, 0x42#7]

/-- A command by its selector (R82, R83); the fields a command does not use are ignored (R81). `val` is
read as two's complement, `param` and `port` as unsigned. -/
def decodeCommand (c : Command) : Except DecodeError Instr :=
  match c.sel with
  | 0x08#7 => .ok (.encNoteOff c.chan c.d1 c.d2 c.port.toNat)
  | 0x09#7 => .ok (.encNoteOn c.chan c.d1 c.d2 c.port.toNat)
  | 0x0A#7 => .ok (.encPolyPress c.chan c.d1 c.d2 c.port.toNat)
  | 0x0B#7 => .ok (.encControl c.chan c.d1 c.d2 c.port.toNat)
  | 0x0C#7 => .ok (.encProgram c.chan c.d1 c.port.toNat)
  | 0x0D#7 => .ok (.encChanPress c.chan c.d1 c.port.toNat)
  | 0x0E#7 => .ok (.encPitchBend c.chan c.val.toInt c.port.toNat)
  | 0x11#7 => .ok (.encQFrame c.val.toInt c.port.toNat)
  | 0x12#7 => .ok (.encSongPos c.val.toInt c.port.toNat)
  | 0x13#7 => .ok (.encSongSel c.val.toInt c.port.toNat)
  | 0x16#7 => .ok (.encTuneReq c.port.toNat)
  | 0x28#7 => .ok (.encClock c.port.toNat)
  | 0x29#7 => .ok (.encTick c.port.toNat)
  | 0x2A#7 => .ok (.encStart c.port.toNat)
  | 0x2B#7 => .ok (.encContinue c.port.toNat)
  | 0x2C#7 => .ok (.encStop c.port.toNat)
  | 0x2E#7 => .ok (.encActSense c.port.toNat)
  | 0x2F#7 => .ok (.encSysReset c.port.toNat)
  | 0x30#7 => .ok (.encSysEx c.payload c.port.toNat)
  | 0x40#7 => .ok (.encCc14 c.chan c.param.toNat c.val.toInt c.port.toNat)
  | 0x41#7 => .ok (.encNrpn c.chan c.param.toNat c.val.toInt c.port.toNat)
  | 0x42#7 => .ok (.encRpn c.chan c.param.toNat c.val.toInt c.port.toNat)
  | sel => .error (.unlistedSelector sel)

/-! ### Control events -/

/-- DEC's control codes (R84). -/
def decodeDecControl (code : BitVec 3) : Except DecodeError Instr :=
  match code with
  | 0#3 => .ok .ctlDecReset
  | 1#3 => .ok .ctlDecRxError
  | 2#3 => .ok .ctlDecInRouteReset
  | 3#3 => .ok .ctlDecDstatClear
  | 4#3 => .ok .ctlDecStatusRead
  | code => .error (.reservedDecControl code)

/-- ENC's control codes (R84). -/
def decodeEncControl (code : BitVec 3) : Except DecodeError Instr :=
  match code with
  | 0#3 => .ok .ctlEncReset
  | 1#3 => .ok .ctlEncWriteError
  | 2#3 => .ok .ctlEncIdleExpired
  | 3#3 => .ok .ctlEncSubsEdge
  | 4#3 => .ok .ctlEncEstatClear
  | 5#3 => .ok .ctlEncStatusRead
  | code => .error (.reservedEncControl code)

/-- What one input is: an instruction, or a named reason why it is none. -/
def decode : Input → Except DecodeError Instr
  | .wire b => .ok (decodeWire b)
  | .command c => decodeCommand c
  | .decControl code => decodeDecControl code
  | .encControl code => decodeEncControl code

/-! ### The encoder of instructions -/

/-- The record of a command of selector `cls * 16 + kind` for `port`, with its operands added by `f`. -/
def commandFor (cls : BitVec 3) (kind : Nibble) (port : Nat) (f : Command → Command) : Input :=
  .command (f { Command.bare cls kind with port := BitVec.ofNat 5 port })

/-- The input of an instruction: the byte of R71, the record of R81 and R83 (unused fields zero) or the
code of R84. -/
def encode : Instr → Input
  | .decNoteOffStatus chan => .wire (byteOf 0x8#4 chan)
  | .decNoteOnStatus chan => .wire (byteOf 0x9#4 chan)
  | .decPolyPressureStatus chan => .wire (byteOf 0xA#4 chan)
  | .decControllerStatus chan => .wire (byteOf 0xB#4 chan)
  | .decProgramChangeStatus chan => .wire (byteOf 0xC#4 chan)
  | .decChannelPressureStatus chan => .wire (byteOf 0xD#4 chan)
  | .decPitchBendStatus chan => .wire (byteOf 0xE#4 chan)
  | .decSysexStart => .wire 0xF0#8
  | .decQuarterFrame => .wire 0xF1#8
  | .decSongPosition => .wire 0xF2#8
  | .decSongSelect => .wire 0xF3#8
  | .decUndefinedF4 => .wire 0xF4#8
  | .decPortSelect => .wire 0xF5#8
  | .decTuneRequest => .wire 0xF6#8
  | .decEox => .wire 0xF7#8
  | .decClock => .wire 0xF8#8
  | .decTick => .wire 0xF9#8
  | .decStart => .wire 0xFA#8
  | .decContinue => .wire 0xFB#8
  | .decStop => .wire 0xFC#8
  | .decUndefinedFD => .wire 0xFD#8
  | .decActiveSensing => .wire 0xFE#8
  | .decReset => .wire 0xFF#8
  | .decData value => .wire (value.setWidth 8)
  | .encNoteOff chan d1 d2 port =>
      commandFor 0#3 0x8#4 port (fun c => { c with chan := chan, d1 := d1, d2 := d2 })
  | .encNoteOn chan d1 d2 port =>
      commandFor 0#3 0x9#4 port (fun c => { c with chan := chan, d1 := d1, d2 := d2 })
  | .encPolyPress chan d1 d2 port =>
      commandFor 0#3 0xA#4 port (fun c => { c with chan := chan, d1 := d1, d2 := d2 })
  | .encControl chan d1 d2 port =>
      commandFor 0#3 0xB#4 port (fun c => { c with chan := chan, d1 := d1, d2 := d2 })
  | .encProgram chan d1 port =>
      commandFor 0#3 0xC#4 port (fun c => { c with chan := chan, d1 := d1 })
  | .encChanPress chan d1 port =>
      commandFor 0#3 0xD#4 port (fun c => { c with chan := chan, d1 := d1 })
  | .encPitchBend chan val port =>
      commandFor 0#3 0xE#4 port (fun c => { c with chan := chan, val := BitVec.ofInt 16 val })
  | .encQFrame val port =>
      commandFor 1#3 0x1#4 port (fun c => { c with val := BitVec.ofInt 16 val })
  | .encSongPos val port =>
      commandFor 1#3 0x2#4 port (fun c => { c with val := BitVec.ofInt 16 val })
  | .encSongSel val port =>
      commandFor 1#3 0x3#4 port (fun c => { c with val := BitVec.ofInt 16 val })
  | .encTuneReq port => commandFor 1#3 0x6#4 port id
  | .encClock port => commandFor 2#3 0x8#4 port id
  | .encTick port => commandFor 2#3 0x9#4 port id
  | .encStart port => commandFor 2#3 0xA#4 port id
  | .encContinue port => commandFor 2#3 0xB#4 port id
  | .encStop port => commandFor 2#3 0xC#4 port id
  | .encActSense port => commandFor 2#3 0xE#4 port id
  | .encSysReset port => commandFor 2#3 0xF#4 port id
  | .encSysEx payload port => commandFor 3#3 0x0#4 port (fun c => { c with payload := payload })
  | .encCc14 chan param val port =>
      commandFor 4#3 0x0#4 port (fun c => { c with chan := chan, param := BitVec.ofNat 16 param, val := BitVec.ofInt 16 val })
  | .encNrpn chan param val port =>
      commandFor 4#3 0x1#4 port (fun c => { c with chan := chan, param := BitVec.ofNat 16 param, val := BitVec.ofInt 16 val })
  | .encRpn chan param val port =>
      commandFor 4#3 0x2#4 port (fun c => { c with chan := chan, param := BitVec.ofNat 16 param, val := BitVec.ofInt 16 val })
  | .ctlDecReset => .decControl 0#3
  | .ctlDecRxError => .decControl 1#3
  | .ctlDecInRouteReset => .decControl 2#3
  | .ctlDecDstatClear => .decControl 3#3
  | .ctlDecStatusRead => .decControl 4#3
  | .ctlEncReset => .encControl 0#3
  | .ctlEncWriteError => .encControl 1#3
  | .ctlEncIdleExpired => .encControl 2#3
  | .ctlEncSubsEdge => .encControl 3#3
  | .ctlEncEstatClear => .encControl 4#3
  | .ctlEncStatusRead => .encControl 5#3

/-! ### Words of the opcode table -/

/-- The input a word of the opcode table stands for. The table numbers its three formats (WIRE8, CMD,
CTL) apart, so a byte below `0x80` names a data byte, a selector and a control code alike. The model
reads it as: a status byte when bit 7 is set; else the command with that selector, its operands zero,
when R83 lists it; else the DEC control event 0..4 or ENC's 5; else a data byte. DESIGN CHOICE
(notes/assumptions/8.md), safe: no step reads an input so, only the host's two questions do. A word
wider than a byte is reduced to its low 8 bits (R101). -/
def tableInput (nbits w : Nat) : Input :=
  let v := w % 2 ^ nbits
  let b := BitVec.ofNat 8 v
  if b.getLsbD 7 then .wire b
  else if acceptedSelectors.contains (b.setWidth 7) then
    .command (Command.bare ((highNibble b).setWidth 3) (lowNibble b))
  else if b.toNat < 5 then .decControl (b.setWidth 3)
  else if b.toNat = 5 then .encControl (b.setWidth 3)
  else .wire b

/-- The instruction the decoder reads from an opcode-table word. -/
def decodeTableWord (nbits w : Nat) : Option Instr := (decode (tableInput nbits w)).toOption

end Sys2Proof
end

