-- ==== Sys2Proof/Machine/State.lean ====
section
/-! DEFINITION. The state of the block (spec/10_state.md), the event record (spec/30_encoding.md R80), the
reasons a step can stop, and reset (spec/70_reset_and_hazards.md R260). -/

namespace Sys2Proof.Machine

/-- The storage array: (index, byte) cells in canonical form, indices strictly rising and no cell
holding the value an unlisted element reads as, which is `0x00` (R23; `Memory.read` in Ops.lean). -/
abbrev Memory := List Host.Cell

/-- The canonical form: equal arrays are equal lists. -/
abbrev Memory.wf (m : Memory) : Prop :=
  m.Pairwise (fun x y => x.1 < y.1) ∧ ∀ c ∈ m, c.2 ≠ 0#8

/-- The class of an event record (R80); its code is `EventClass.code` (Ops.lean). -/
inductive EventClass where
  | cv
  | sc
  | rt
  | sx
  | ps
  deriving DecidableEq, Repr

/-- The event record DEC emits, field for field (R80). -/
structure Event where
  cls : EventClass
  kind : Nibble
  status : Byte
  chan : Nibble
  d1 : Data7
  d2 : Data7
  hasD2 : Bool
  val : Int
  raw : List Byte
  eox : Bool
  port : Nat
  deriving DecidableEq, Repr

/-- The registers of DEC (R22 to R28). -/
structure DecState where
  /-- Running status: `0x00` for none, else the last channel-voice status byte (R22). -/
  rs : Byte
  /-- The accumulation buffer of `SYSEX_CAP` bytes (R23). -/
  buf : Memory
  /-- The number of bytes of the open frame held in `buf`; 0 when no frame is open (R24). -/
  pos : Nat
  /-- The length at which the open frame is complete (R25). -/
  exp : Nat
  /-- The logical port to which events are attributed, 1..`N_PORTS` (R27). -/
  inPort : Nat
  /-- The sticky status register `DSTAT` (R28). -/
  dstat : Byte
  deriving DecidableEq, Repr

/-- The registers of ENC (R29 to R32). -/
structure EncState where
  /-- Running status of the output: `0x00` for none, else a channel-voice status byte (R29). -/
  rsOut : Byte
  /-- `last_idx`: the 0-based index of the port last announced, or -1 for unknown (R31). -/
  lastIdx : Int
  /-- The sticky status register `ESTAT` (R32). -/
  estat : Byte
  deriving DecidableEq, Repr

/-- The two agents' registers, and the model's own fields: the configuration (R6, R33; no step writes
it), the inputs still to be presented (R21, R230) and what each agent has put out so far, oldest first
(R58). DESIGN CHOICE (notes/assumptions/2.md and 4.md), safe: the spec hands inputs and outputs to the
environment, the model keeps them as lists. -/
structure State where
  cfg : Config
  dec : DecState
  enc : EncState
  /-- The inputs the environment has still to present, the next one first. -/
  inputs : List Input
  /-- The event records DEC has emitted. -/
  events : List Event
  /-- The values DEC's `STATUS_READ` has returned (R229). -/
  decReads : List Byte
  /-- The wire bytes ENC has emitted. -/
  wireOut : List Byte
  /-- The values ENC's `STATUS_READ` has returned (R229). -/
  encReads : List Byte
  deriving DecidableEq, Repr

/-- Why a step stops the machine. The block raises no exception of its own (R240). -/
inductive Fault where
  /-- Raised by a data byte or an `F7` that would append at `pos ≥ SYSEX_CAP`, where the buffer has no
  element (R23, R51). R51 says that no rule does so: a state that meets R36 never takes it. Safe: the
  model stops where the spec gives no element to write (DEDUCED, notes/assumptions/6.md). -/
  | bufferOverrun
  deriving DecidableEq, Repr

/-- Why a step has no meaning to give. -/
inductive Refusal where
  /-- An arm of `exec` with no meaning yet; no arm answers so. Safe. -/
  | notModelled (mnemonic : String)
  /-- Raised by `step` on a control code that R84 gives no event (DEC 5..7, ENC 6 and 7). Safe: the spec
  gives such a code no effect (DESIGN CHOICE, notes/assumptions/5.md). -/
  | reservedControl (code : BitVec 3)
  deriving DecidableEq, Repr

/-- DEC after reset (R220, R260). -/
def DecState.reset : DecState :=
  { rs := 0x00#8, buf := [], pos := 0, exp := 0, inPort := 1, dstat := 0x00#8 }

/-- ENC after reset (R224, R260). -/
def EncState.reset : EncState :=
  { rsOut := 0x00#8, lastIdx := -1, estat := 0x00#8 }

/-- Both agents after reset in the configuration `c`, with nothing presented and nothing put out
(R260, R261). -/
def State.resetWith (c : Config) : State :=
  { cfg := c, dec := DecState.reset, enc := EncState.reset
    inputs := [], events := [], decReads := [], wireOut := [], encReads := [] }

/-- The machine right after reset, in the configuration that notes/assumptions/1.md names. -/
def State.reset : State := State.resetWith Config.standard

end Sys2Proof.Machine
end

