-- ==== Sys2Proof/Machine/Flags.lean ====
section
/-! DEFINITION. The sticky status bits: `DSTAT` (spec/10_state.md R28) and `ESTAT` (R32). Reserved bits
are never written (spec/93_implementation_defined.md U14). -/

namespace Sys2Proof.Machine

/-- `DSTAT.SX_TRUNC`, bit 0 (R28). -/
def sxTruncBit : Byte := 0x01#8

/-- `DSTAT.SX_ABORT`, bit 1 (R28). -/
def sxAbortBit : Byte := 0x02#8

/-- `DSTAT.PORT_RANGE`, bit 2 (R28). -/
def portRangeBit : Byte := 0x04#8

/-- `ESTAT.REJECT`, bit 0 (R32). -/
def rejectBit : Byte := 0x01#8

/-- `flag DSTAT.X` (R9): the bit becomes 1, the others stay. -/
def DecState.flag (mask : Byte) (d : DecState) : DecState := { d with dstat := d.dstat ||| mask }

/-- `flag ESTAT.X` (R9): the bit becomes 1, the others stay. -/
def EncState.flag (mask : Byte) (e : EncState) : EncState := { e with estat := e.estat ||| mask }

/-- `DSTAT <- 0x00` (R223). -/
def DecState.clearStatus (d : DecState) : DecState := { d with dstat := 0x00#8 }

/-- `ESTAT <- 0x00` (R228). -/
def EncState.clearStatus (e : EncState) : EncState := { e with estat := 0x00#8 }

end Sys2Proof.Machine
end

