-- ==== Sys2Proof/Machine/Operands.lean ====
section
/-! DEFINITION. Operand forms: the masking and splitting of command data (spec/42_encoder.md R163 to R188),
the assembly of 14-bit values (spec/30_encoding.md R74), frame lengths (R72, R102, R119), the port of a
port-select value (spec/43_port_router.md R202) and the check of a command's port (R161). -/

namespace Sys2Proof.Machine

/-! ### Data the encoder sends -/

/-- `d & 0x7F` (R188). -/
def mask7 (d : Byte) : Byte := d &&& 0x7F#8

/-- `v mod 128` as a data byte (R171, R173, R188). -/
def lowData (v : Int) : Byte := BitVec.ofNat 8 (v % 128).toNat

/-- `v mod 16384`, never negative (R9, R188). -/
def wrap14 (v : Int) : Nat := (v % 16384).toNat

/-- `(v + 8192) mod 16384`, the biased 14-bit value (R169, R172). -/
def bias14 (v : Int) : Nat := wrap14 (v + 8192)

/-- `w & 0x7F` (R53). -/
def lsb7 (w : Nat) : Byte := BitVec.ofNat 8 (w &&& 0x7F)

/-- `(w >> 7) & 0x7F` (R53). -/
def msb7 (w : Nat) : Byte := BitVec.ofNat 8 ((w >>> 7) &&& 0x7F)

/-- The body of PitchBend and SongPosition: LSB, then MSB (R53, R169, R172). -/
def biasedPair (v : Int) : List Byte := [lsb7 (bias14 v), msb7 (bias14 v)]

/-- The body of the 14-bit controller (R185): the controller, the value's MSB, the controller plus
`0x20`, the value's LSB. -/
def cc14Body (param : Nat) (val : Int) : List Byte :=
  [BitVec.ofNat 8 param, msb7 (wrap14 val), BitVec.ofNat 8 (param + 0x20), lsb7 (wrap14 val)]

/-- The body of NRPN and RPN (R186, R187): the parameter under the controllers `cMsb`, `cLsb`, then the
value under `0x06`, `0x26`, each MSB first. -/
def paramBody (cMsb cLsb : Byte) (param : Nat) (val : Int) : List Byte :=
  [cMsb, msb7 (wrap14 param), cLsb, lsb7 (wrap14 param),
   0x06#8, msb7 (wrap14 val), 0x26#8, lsb7 (wrap14 val)]

/-! ### Values the decoder reads -/

/-- `d1 | (d2 << 7)`, 0..16383 (R74). -/
def word14 (d1 d2 : Data7) : Nat := d1.toNat ||| (d2.toNat <<< 7)

/-- `w - 8192`, the value of PitchBend and SongPosition (R74). -/
def unbias14 (d1 d2 : Data7) : Int := (word14 d1 d2 : Int) - 8192

/-- `val` of a channel-voice record (R80, R128). -/
def cvValue (kind : Nibble) (d1 d2 : Data7) : Int := if kind = 0xE#4 then unbias14 d1 d2 else 0

/-- `val` of a system-common record (R80, R129): biased for SongPosition, the data byte for
QuarterFrame, SongSelect and `0xF4`, else 0. -/
def scValue (kind : Nibble) (d1 d2 : Data7) : Int :=
  if kind = 0x2#4 then unbias14 d1 d2
  else if kind = 0x1#4 ∨ kind = 0x3#4 ∨ kind = 0x4#4 then (d1.toNat : Int)
  else 0

/-- `exp` of a channel-voice status byte (R102): 2 for ProgramChange and ChannelPressure, else 3. -/
def cvLength (kind : Nibble) : Nat := if kind = 0xC#4 ∨ kind = 0xD#4 then 2 else 3

/-- `exp` of a system-common status byte that opens a frame (R119): 3 for `0xF2`, else 2. -/
def scLength (b : Byte) : Nat := if b = 0xF2#8 then 3 else 2

/-! ### Ports -/

/-- `Resolve(pp)` (R202): the port a port-select value names, if any. -/
def resolvePort (cfg : Config) (pp : Byte) : Option Nat :=
  if pp = 0x00#8 ∨ pp = 0x7F#8 then some 1
  else if 1 ≤ pp.toNat ∧ pp.toNat ≤ cfg.nPorts then some pp.toNat
  else none

/-- Check 3 of `Accept` (R161): `N_PORTS = 1`, or `1 ≤ port ≤ N_PORTS`. -/
def portAccepted (cfg : Config) (port : Nat) : Bool :=
  decide (cfg.nPorts = 1) || (decide (1 ≤ port) && decide (port ≤ cfg.nPorts))

end Sys2Proof.Machine
end

