-- ==== Sys2Proof/Machine/Ops.lean ====
section
/-! DEFINITION. The named operations over the state: the buffer (spec/20_memory.md R50 to R52), the
agents' outputs, the event records and their selectors (spec/30_encoding.md R80), DEC's pseudocode (spec/40_decoder.md, 41_sysex.md, 43_port_router.md) and ENC's
(spec/42_encoder.md, 43_port_router.md). The block takes no exception and returns from none
(spec/60_exceptions.md R240): its error paths are the operations `sysexAbort`, `truncate`, `portSelect`
and `rejectCommand`, which complete their step. -/

namespace Sys2Proof.Machine

/-! ### The buffer -/

/-- `buf[i]`. An unlisted element reads `0x00`, the reset contents of R23. -/
def Memory.read (m : Memory) (i : Nat) : Byte :=
  match m with
  | [] => 0x00#8
  | (j, b) :: rest => if j = i then b else Memory.read rest i

/-- The cell `(i, b)` put before the first cell of a higher index. -/
def Memory.insert (m : Memory) (i : Nat) (b : Byte) : Memory :=
  match m with
  | [] => [(i, b)]
  | (j, c) :: rest => if i < j then (i, b) :: (j, c) :: rest else (j, c) :: Memory.insert rest i b

/-- `buf[i] <- b`, in canonical form: writing `0x00` leaves no cell. -/
def Memory.write (m : Memory) (i : Nat) (b : Byte) : Memory :=
  let others := m.filter (fun c => c.1 ≠ i)
  if b = 0x00#8 then others else Memory.insert others i b

/-- `buf[0..n-1]`, the list of elements 0 to n-1 (R9). -/
def Memory.readFrame (m : Memory) (n : Nat) : List Byte := (List.range n).map (Memory.read m)

/-- `sx_open`: `pos ≥ 1` and `buf[0] = 0xF0` (R26). -/
def DecState.sxOpen (d : DecState) : Bool := decide (1 ≤ d.pos) && Memory.read d.buf 0 == 0xF0#8

/-- `BufAppend(b)` (R51): `buf[pos] <- b; pos <- pos + 1`, used only when `pos < SYSEX_CAP`. -/
def DecState.append (cap : Nat) (b : Byte) (d : DecState) : Option DecState :=
  if d.pos < cap then some { d with buf := Memory.write d.buf d.pos b, pos := d.pos + 1 } else none

/-- A new frame's start (R51): `buf[0] <- status; pos <- 1`, with its running status and length. -/
def DecState.openFrame (rs status : Byte) (length : Nat) (d : DecState) : DecState :=
  { d with rs := rs, buf := Memory.write d.buf 0 status, pos := 1, exp := length }

/-- `rs <- 0; pos <- 0`: no running status and no open frame (R143, R221). -/
def DecState.closeFrame (d : DecState) : DecState := { d with rs := 0x00#8, pos := 0 }

/-! ### Updates of the state and outputs -/

/-- The state with DEC's registers replaced. -/
def State.setDec (s : State) (d : DecState) : State := { s with dec := d }

/-- The state with ENC's registers replaced. -/
def State.setEnc (s : State) (e : EncState) : State := { s with enc := e }

/-- `emit E` (R9): the record joins DEC's event output. -/
def State.emit (s : State) (e : Event) : State := { s with events := s.events ++ [e] }

/-- ENC's bytes go to the transport, in list order (R160). -/
def State.send (s : State) (bytes : List Byte) : State := { s with wireOut := s.wireOut ++ bytes }

/-- DEC's `STATUS_READ` returns a value (R229). -/
def State.returnDec (s : State) (v : Byte) : State := { s with decReads := s.decReads ++ [v] }

/-- ENC's `STATUS_READ` returns a value (R229). -/
def State.returnEnc (s : State) (v : Byte) : State := { s with encReads := s.encReads ++ [v] }

/-! ### Event records -/

/-- The code of an event's class (R80): CV, SC, RT and SX as in a command's `cls` (R81), and PS. -/
def EventClass.code : EventClass → BitVec 3
  | .cv => 0#3
  | .sc => 1#3
  | .rt => 2#3
  | .sx => 3#3
  | .ps => 5#3

/-- The selector of an event (R80): `sel = cls * 16 + kind`, numbered as `Command.sel` is (R82). -/
def Event.sel (e : Event) : BitVec 7 := e.cls.code ++ e.kind

/-- `CvEvent(frame)` (R128); the fields are R80's. -/
def cvEvent (frame : List Byte) (port : Nat) : Event :=
  let status := frame.getD 0 0#8
  let d1 := (frame.getD 1 0#8).setWidth 7
  let d2 := if frame.length = 3 then (frame.getD 2 0#8).setWidth 7 else 0#7
  { cls := .cv, kind := highNibble status, status := status, chan := lowNibble status
    d1 := d1, d2 := d2, hasD2 := decide (frame.length = 3)
    val := cvValue (highNibble status) d1 d2, raw := frame, eox := false, port := port }

/-- `ScEvent(frame)` (R129); the fields are R80's. -/
def scEvent (frame : List Byte) (port : Nat) : Event :=
  let status := frame.getD 0 0#8
  let d1 := (frame.getD 1 0#8).setWidth 7
  let d2 := if frame.length = 3 then (frame.getD 2 0#8).setWidth 7 else 0#7
  { cls := .sc, kind := lowNibble status, status := status, chan := 0#4
    d1 := d1, d2 := d2, hasD2 := decide (frame.length = 3)
    val := scValue (lowNibble status) d1 d2, raw := frame, eox := false, port := port }

/-- The record of a real-time byte (R110). -/
def rtEvent (b : Byte) (port : Nat) : Event :=
  { cls := .rt, kind := lowNibble b, status := b, chan := 0#4, d1 := 0#7, d2 := 0#7, hasD2 := false
    val := 0, raw := [b], eox := false, port := port }

/-- The record of a SysEx frame, complete (R142) or truncated (R144). -/
def sxEvent (frame : List Byte) (eox : Bool) (port : Nat) : Event :=
  { cls := .sx, kind := 0#4, status := 0xF0#8, chan := 0#4, d1 := 0#7, d2 := 0#7, hasD2 := false
    val := 0, raw := frame, eox := eox, port := port }

/-- The record of a port selection (R201). -/
def psEvent (pp : Byte) (port : Nat) : Event :=
  { cls := .ps, kind := 5#4, status := 0xF5#8, chan := 0#4, d1 := pp.setWidth 7, d2 := 0#7
    hasD2 := false, val := 0, raw := [0xF5#8, pp], eox := false, port := port }

/-! ### DEC -/

/-- `SysexAbort()` where the dispatch runs it: a status byte other than real-time and other than `F7`
while a SysEx frame is open (R100, R145). -/
def sysexAbort (s : State) : State :=
  if s.dec.sxOpen then s.setDec (s.dec.flag sxAbortBit) else s

/-- `CvStatus(b)` (R102), after `SysexAbort` (R100). -/
def cvStatus (kind chan : Nibble) (s : State) : State :=
  let s1 := sysexAbort s
  let b := byteOf kind chan
  s1.setDec (s1.dec.openFrame b b (cvLength kind))

/-- `SysexStart()` (R140), after `SysexAbort` (R100). -/
def sysexStart (s : State) : State :=
  let s1 := sysexAbort s
  s1.setDec (s1.dec.openFrame 0x00#8 0xF0#8 s.cfg.sysexCap)

/-- `ScStatus(b)` (R119), after `SysexAbort` (R100). -/
def scStatus (b : Byte) (s : State) : State :=
  let s1 := sysexAbort s
  if b = 0xF6#8 then (s1.setDec s1.dec.closeFrame).emit (scEvent [0xF6#8] s1.dec.inPort)
  else s1.setDec (s1.dec.openFrame 0x00#8 b (scLength b))

/-- `RealTime(b)` (R110): the record and nothing else. -/
def realTime (b : Byte) (s : State) : State := s.emit (rtEvent b s.dec.inPort)

/-- `Eox()` (R142 while a SysEx frame is open, R143 otherwise). -/
def eox (s : State) : Host.Outcome State Fault Refusal :=
  if s.dec.sxOpen then
    match s.dec.append s.cfg.sysexCap 0xF7#8 with
    | none => .fault .bufferOverrun
    | some d => .next ((s.setDec d.closeFrame).emit
        (sxEvent (Memory.readFrame d.buf d.pos) true d.inPort))
  else .next (s.setDec s.dec.closeFrame)

/-- `Truncate()` (R144). -/
def truncate (s : State) : State :=
  (s.setDec { s.dec.flag sxTruncBit with pos := 0 }).emit
    (sxEvent (Memory.readFrame s.dec.buf s.cfg.sysexCap) false s.dec.inPort)

/-- `SysexData(b)` (R141). -/
def sysexData (b : Byte) (s : State) : Host.Outcome State Fault Refusal :=
  match s.dec.append s.cfg.sysexCap b with
  | none => .fault .bufferOverrun
  | some d => .next (if d.pos = s.cfg.sysexCap then truncate (s.setDec d) else s.setDec d)

/-- `PortSelect(pp)` (R201, R203). -/
def portSelect (pp : Byte) (s : State) : State :=
  match resolvePort s.cfg pp with
  | none => s.setDec (s.dec.flag portRangeBit)
  | some p => (s.setDec { s.dec with inPort := p }).emit (psEvent pp p)

/-- The output of a complete frame, by its status byte (R127). -/
def emitFrame (s : State) : State :=
  let frame := Memory.readFrame s.dec.buf s.dec.exp
  let head := Memory.read s.dec.buf 0
  if head.toNat ≤ 0xEF then s.emit (cvEvent frame s.dec.inPort)
  else if head = 0xF5#8 then portSelect (frame.getD 1 0#8) s
  else s.emit (scEvent frame s.dec.inPort)

/-- `Complete()` (R127). -/
def complete (s : State) : State :=
  let s1 := emitFrame s
  s1.setDec { s1.dec with pos := if s1.dec.rs ≠ 0x00#8 then 1 else 0 }

/-- `DataByte(b)` (R126). -/
def dataByte (b : Byte) (s : State) : Host.Outcome State Fault Refusal :=
  if s.dec.rs = 0x00#8 ∧ s.dec.sxOpen = false ∧ s.dec.pos = 0 then .next s
  else if s.dec.sxOpen then sysexData b s
  else
    match s.dec.append s.cfg.sysexCap b with
    | none => .fault .bufferOverrun
    | some d => .next (if d.pos = d.exp then complete (s.setDec d) else s.setDec d)

/-! ### ENC -/

/-- `Reject()` (R189): no bytes, `ESTAT.REJECT`, nothing else. -/
def rejectCommand (s : State) : State := s.setEnc (s.enc.flag rejectBit)

/-- `RoutePrefix(port)` (R206 to R208): announce the port unless it is the one last announced. -/
def routePrefix (port : Nat) (s : State) : State :=
  if s.cfg.nPorts = 1 then s
  else if s.enc.lastIdx = -1 ∨ s.enc.lastIdx ≠ (port : Int) - 1 then
    (s.send [0xF5#8, BitVec.ofNat 8 port]).setEnc
      { s.enc with lastIdx := (port : Int) - 1, rsOut := 0x00#8 }
  else s

/-- `EncStep(cmd)` (R160) for a command whose selector R83 lists: `extra` is what checks 2 and 4 of
`Accept` ask of it (R161), `body` appends its bytes and updates `rs_out`. -/
def runCommand (extra : Bool) (port : Nat) (body : State → State) (s : State) : State :=
  if extra && portAccepted s.cfg port then body (routePrefix port s) else rejectCommand s

/-- `CvOut(cmd)` (R162): the status byte is left out when it equals `rs_out`. -/
def cvOut (kind chan : Nibble) (body : List Byte) (s : State) : State :=
  let status := byteOf kind chan
  (s.send (if status = s.enc.rsOut then body else status :: body)).setEnc
    { s.enc with rsOut := status }

/-- `ScOut(cmd)` (R170) and `SxOut(cmd)` (R183): the bytes, then `rs_out <- 0`. -/
def plainOut (bytes : List Byte) (s : State) : State :=
  (s.send bytes).setEnc { s.enc with rsOut := 0x00#8 }

/-- `RtOut(cmd)` (R175): one byte, `rs_out` unchanged. -/
def rtOut (kind : Nibble) (s : State) : State := s.send [0xF0#8 ||| kind.setWidth 8]

/-- `X14Out(cmd)` (R184): the status byte is always sent. -/
def x14Out (chan : Nibble) (body : List Byte) (s : State) : State :=
  let status := 0xB0#8 ||| chan.setWidth 8
  (s.send (status :: body)).setEnc { s.enc with rsOut := status }

end Sys2Proof.Machine
end

