-- ==== Sys2Proof/Machine/Control.lean ====
section
/-! DEFINITION. The control events of DEC and of ENC (spec/44_control.md). -/

namespace Sys2Proof.Machine

/-- DEC `RESET` (R220, R260). -/
def execCtlDecReset (s : State) : Host.Outcome State Fault Refusal :=
  .next (s.setDec DecState.reset)

/-- DEC `RX_ERROR` (R221): the open frame and running status are dropped, with no event and no status bit. -/
def execCtlDecRxError (s : State) : Host.Outcome State Fault Refusal :=
  .next (s.setDec s.dec.closeFrame)

/-- DEC `IN_ROUTE_RESET` (R222). -/
def execCtlDecInRouteReset (s : State) : Host.Outcome State Fault Refusal :=
  .next (s.setDec { s.dec with inPort := 1 })

/-- DEC `DSTAT_CLEAR` (R223). -/
def execCtlDecDstatClear (s : State) : Host.Outcome State Fault Refusal :=
  .next (s.setDec s.dec.clearStatus)

/-- DEC `STATUS_READ` (R229). -/
def execCtlDecStatusRead (s : State) : Host.Outcome State Fault Refusal :=
  .next (s.returnDec s.dec.dstat)

/-- ENC `RESET` (R224, R260). -/
def execCtlEncReset (s : State) : Host.Outcome State Fault Refusal :=
  .next (s.setEnc EncState.reset)

/-- ENC `WRITE_ERROR` (R225). -/
def execCtlEncWriteError (s : State) : Host.Outcome State Fault Refusal :=
  .next (s.setEnc { s.enc with rsOut := 0x00#8, lastIdx := -1 })

/-- ENC `IDLE_EXPIRED` (R226). -/
def execCtlEncIdleExpired (s : State) : Host.Outcome State Fault Refusal :=
  .next (s.setEnc { s.enc with lastIdx := -1 })

/-- ENC `SUBS_EDGE` (R227). -/
def execCtlEncSubsEdge (s : State) : Host.Outcome State Fault Refusal :=
  .next (s.setEnc { s.enc with lastIdx := -1 })

/-- ENC `ESTAT_CLEAR` (R228). -/
def execCtlEncEstatClear (s : State) : Host.Outcome State Fault Refusal :=
  .next (s.setEnc s.enc.clearStatus)

/-- ENC `STATUS_READ` (R229). -/
def execCtlEncStatusRead (s : State) : Host.Outcome State Fault Refusal :=
  .next (s.returnEnc s.enc.estat)

end Sys2Proof.Machine
end

