-- ==== Sys2Proof/Machine/DecChannelVoice.lean ====
section
/-! DEFINITION. DEC, channel-voice status bytes `0x80`..`0xEF` (spec/40_decoder.md section 2). -/

namespace Sys2Proof.Machine

/-- NoteOff status, `0x8c` (R103): `CvStatus`; the record is built at its last data byte (`execDecData`). -/
def execDecNoteOffStatus (chan : Nibble) (s : State) : Host.Outcome State Fault Refusal :=
  .next (cvStatus 0x8#4 chan s)

/-- NoteOn status, `0x9c` (R104): `CvStatus`; the record is built at its last data byte (`execDecData`). -/
def execDecNoteOnStatus (chan : Nibble) (s : State) : Host.Outcome State Fault Refusal :=
  .next (cvStatus 0x9#4 chan s)

/-- PolyPressure status, `0xAc` (R105): `CvStatus`; the record is built at its last data byte (`execDecData`). -/
def execDecPolyPressureStatus (chan : Nibble) (s : State) : Host.Outcome State Fault Refusal :=
  .next (cvStatus 0xA#4 chan s)

/-- Controller status, `0xBc` (R106): `CvStatus`; the record is built at its last data byte (`execDecData`). -/
def execDecControllerStatus (chan : Nibble) (s : State) : Host.Outcome State Fault Refusal :=
  .next (cvStatus 0xB#4 chan s)

/-- ProgramChange status, `0xCc` (R107): `CvStatus`; the record is built at its last data byte (`execDecData`). -/
def execDecProgramChangeStatus (chan : Nibble) (s : State) : Host.Outcome State Fault Refusal :=
  .next (cvStatus 0xC#4 chan s)

/-- ChannelPressure status, `0xDc` (R108): `CvStatus`; the record is built at its last data byte (`execDecData`). -/
def execDecChannelPressureStatus (chan : Nibble) (s : State) : Host.Outcome State Fault Refusal :=
  .next (cvStatus 0xD#4 chan s)

/-- PitchBend status, `0xEc` (R109): `CvStatus`; the record is built at its last data byte (`execDecData`). -/
def execDecPitchBendStatus (chan : Nibble) (s : State) : Host.Outcome State Fault Refusal :=
  .next (cvStatus 0xE#4 chan s)

end Sys2Proof.Machine
end

