-- ==== Sys2Proof/Machine/DecRealTime.lean ====
section
/-! DEFINITION. DEC, real-time bytes `0xF8`..`0xFF` (spec/40_decoder.md section 3). -/

namespace Sys2Proof.Machine

/-- Clock, `0xF8` (R111). -/
def execDecClock (s : State) : Host.Outcome State Fault Refusal :=
  .next (realTime 0xF8#8 s)

/-- Tick, `0xF9` (R112). -/
def execDecTick (s : State) : Host.Outcome State Fault Refusal :=
  .next (realTime 0xF9#8 s)

/-- Start, `0xFA` (R113). -/
def execDecStart (s : State) : Host.Outcome State Fault Refusal :=
  .next (realTime 0xFA#8 s)

/-- Continue, `0xFB` (R114). -/
def execDecContinue (s : State) : Host.Outcome State Fault Refusal :=
  .next (realTime 0xFB#8 s)

/-- Stop, `0xFC` (R115). -/
def execDecStop (s : State) : Host.Outcome State Fault Refusal :=
  .next (realTime 0xFC#8 s)

/-- UndefinedFD, `0xFD` (R116). -/
def execDecUndefinedFD (s : State) : Host.Outcome State Fault Refusal :=
  .next (realTime 0xFD#8 s)

/-- ActiveSensing, `0xFE` (R117). -/
def execDecActiveSensing (s : State) : Host.Outcome State Fault Refusal :=
  .next (realTime 0xFE#8 s)

/-- Reset, `0xFF` (R118). It does not reset the decoder. -/
def execDecReset (s : State) : Host.Outcome State Fault Refusal :=
  .next (realTime 0xFF#8 s)

end Sys2Proof.Machine
end

