-- ==== Sys2Proof/Machine/DecSystem.lean ====
section
/-! DEFINITION. DEC, the bytes `0xF0`..`0xF7` and the data bytes (spec/40_decoder.md sections 4 and 5,
spec/41_sysex.md, spec/43_port_router.md). -/

namespace Sys2Proof.Machine

/-- SysEx start, `0xF0` (R140). -/
def execDecSysexStart (s : State) : Host.Outcome State Fault Refusal :=
  .next (sysexStart s)

/-- QuarterFrame, `0xF1` (R120): `ScStatus`; the frame completes at its last data byte (`execDecData`). -/
def execDecQuarterFrame (s : State) : Host.Outcome State Fault Refusal :=
  .next (scStatus 0xF1#8 s)

/-- SongPosition, `0xF2` (R121): `ScStatus`; the frame completes at its last data byte (`execDecData`). -/
def execDecSongPosition (s : State) : Host.Outcome State Fault Refusal :=
  .next (scStatus 0xF2#8 s)

/-- SongSelect, `0xF3` (R122): `ScStatus`; the frame completes at its last data byte (`execDecData`). -/
def execDecSongSelect (s : State) : Host.Outcome State Fault Refusal :=
  .next (scStatus 0xF3#8 s)

/-- UndefinedF4, `0xF4` (R123): `ScStatus`; the frame completes at its last data byte (`execDecData`). -/
def execDecUndefinedF4 (s : State) : Host.Outcome State Fault Refusal :=
  .next (scStatus 0xF4#8 s)

/-- PortSelect, `0xF5` (R124): `ScStatus`; the frame completes at its last data byte (`execDecData`). -/
def execDecPortSelect (s : State) : Host.Outcome State Fault Refusal :=
  .next (scStatus 0xF5#8 s)

/-- TuneRequest, `0xF6` (R125): `ScStatus`, which emits the record at once. -/
def execDecTuneRequest (s : State) : Host.Outcome State Fault Refusal :=
  .next (scStatus 0xF6#8 s)

/-- SysEx end, `0xF7` (R142, R143). -/
def execDecEox (s : State) : Host.Outcome State Fault Refusal :=
  eox s

/-- A data byte (R126, R127, R141). -/
def execDecData (value : Data7) (s : State) : Host.Outcome State Fault Refusal :=
  dataByte (value.setWidth 8) s

end Sys2Proof.Machine
end

