-- ==== Sys2Proof/Machine/EncChannelVoice.lean ====
section
/-! DEFINITION. ENC, channel-voice commands (spec/42_encoder.md section 2). -/

namespace Sys2Proof.Machine

/-- NoteOff (R163). -/
def execEncNoteOff (chan : Nibble) (d1 d2 : Byte) (port : Nat) (s : State) : Host.Outcome State Fault Refusal :=
  .next (runCommand true port (cvOut 0x8#4 chan [mask7 d1, mask7 d2]) s)

/-- NoteOn (R164). -/
def execEncNoteOn (chan : Nibble) (d1 d2 : Byte) (port : Nat) (s : State) : Host.Outcome State Fault Refusal :=
  .next (runCommand true port (cvOut 0x9#4 chan [mask7 d1, mask7 d2]) s)

/-- PolyPress (R165). -/
def execEncPolyPress (chan : Nibble) (d1 d2 : Byte) (port : Nat) (s : State) : Host.Outcome State Fault Refusal :=
  .next (runCommand true port (cvOut 0xA#4 chan [mask7 d1, mask7 d2]) s)

/-- Control (R166). -/
def execEncControl (chan : Nibble) (d1 d2 : Byte) (port : Nat) (s : State) : Host.Outcome State Fault Refusal :=
  .next (runCommand true port (cvOut 0xB#4 chan [mask7 d1, mask7 d2]) s)

/-- Program (R167). -/
def execEncProgram (chan : Nibble) (d1 : Byte) (port : Nat) (s : State) : Host.Outcome State Fault Refusal :=
  .next (runCommand true port (cvOut 0xC#4 chan [mask7 d1]) s)

/-- ChanPress (R168). -/
def execEncChanPress (chan : Nibble) (d1 : Byte) (port : Nat) (s : State) : Host.Outcome State Fault Refusal :=
  .next (runCommand true port (cvOut 0xD#4 chan [mask7 d1]) s)

/-- PitchBend (R169). -/
def execEncPitchBend (chan : Nibble) (val : Int) (port : Nat) (s : State) : Host.Outcome State Fault Refusal :=
  .next (runCommand true port (cvOut 0xE#4 chan (biasedPair val)) s)

end Sys2Proof.Machine
end

