-- ==== Sys2Proof/Machine/EncExtended.lean ====
section
/-! DEFINITION. ENC, extended controller commands (spec/42_encoder.md section 6). -/

namespace Sys2Proof.Machine

/-- 14-bit controller (R185): accepted only with `EXT_CC` and a controller number of at most 31 (R161). -/
def execEncCc14 (chan : Nibble) (param : Nat) (val : Int) (port : Nat) (s : State) : Host.Outcome State Fault Refusal :=
  .next (runCommand (s.cfg.extCc && decide (param ≤ 31)) port (x14Out chan (cc14Body param val)) s)

/-- NRPN (R186): accepted only with `EXT_CC` (R161). -/
def execEncNrpn (chan : Nibble) (param : Nat) (val : Int) (port : Nat) (s : State) : Host.Outcome State Fault Refusal :=
  .next (runCommand s.cfg.extCc port (x14Out chan (paramBody 0x63#8 0x62#8 param val)) s)

/-- RPN (R187): accepted only with `EXT_CC` (R161). -/
def execEncRpn (chan : Nibble) (param : Nat) (val : Int) (port : Nat) (s : State) : Host.Outcome State Fault Refusal :=
  .next (runCommand s.cfg.extCc port (x14Out chan (paramBody 0x65#8 0x64#8 param val)) s)

end Sys2Proof.Machine
end

