-- ==== Sys2Proof/Machine/EncRealTime.lean ====
section
/-! DEFINITION. ENC, real-time commands (spec/42_encoder.md section 4). -/

namespace Sys2Proof.Machine

/-- Clock (R176). -/
def execEncClock (port : Nat) (s : State) : Host.Outcome State Fault Refusal :=
  .next (runCommand true port (rtOut 0x8#4) s)

/-- Tick (R177). -/
def execEncTick (port : Nat) (s : State) : Host.Outcome State Fault Refusal :=
  .next (runCommand true port (rtOut 0x9#4) s)

/-- Start (R178). -/
def execEncStart (port : Nat) (s : State) : Host.Outcome State Fault Refusal :=
  .next (runCommand true port (rtOut 0xA#4) s)

/-- Continue (R179). -/
def execEncContinue (port : Nat) (s : State) : Host.Outcome State Fault Refusal :=
  .next (runCommand true port (rtOut 0xB#4) s)

/-- Stop (R180). -/
def execEncStop (port : Nat) (s : State) : Host.Outcome State Fault Refusal :=
  .next (runCommand true port (rtOut 0xC#4) s)

/-- ActSense (R181). -/
def execEncActSense (port : Nat) (s : State) : Host.Outcome State Fault Refusal :=
  .next (runCommand true port (rtOut 0xE#4) s)

/-- SysReset (R182). It does not reset the encoder's state. -/
def execEncSysReset (port : Nat) (s : State) : Host.Outcome State Fault Refusal :=
  .next (runCommand true port (rtOut 0xF#4) s)

end Sys2Proof.Machine
end

