-- ==== Sys2Proof/Machine/EncSystem.lean ====
section
/-! DEFINITION. ENC, system-common and SysEx commands (spec/42_encoder.md sections 3 and 5). -/

namespace Sys2Proof.Machine

/-- QuarterFrame (R171). -/
def execEncQFrame (val : Int) (port : Nat) (s : State) : Host.Outcome State Fault Refusal :=
  .next (runCommand true port (plainOut [0xF1#8, lowData val]) s)

/-- SongPosition (R172). -/
def execEncSongPos (val : Int) (port : Nat) (s : State) : Host.Outcome State Fault Refusal :=
  .next (runCommand true port (plainOut (0xF2#8 :: biasedPair val)) s)

/-- SongSelect (R173). -/
def execEncSongSel (val : Int) (port : Nat) (s : State) : Host.Outcome State Fault Refusal :=
  .next (runCommand true port (plainOut [0xF3#8, lowData val]) s)

/-- TuneRequest (R174). -/
def execEncTuneReq (port : Nat) (s : State) : Host.Outcome State Fault Refusal :=
  .next (runCommand true port (plainOut [0xF6#8]) s)

/-- SysEx (R183): the payload verbatim, unchecked. -/
def execEncSysEx (payload : List Byte) (port : Nat) (s : State) : Host.Outcome State Fault Refusal :=
  .next (runCommand true port (plainOut payload) s)

end Sys2Proof.Machine
end

