-- ==== Sys2Proof/Machine/Dispatch.lean ====
section
/-! DEFINITION. The dispatch: one arm per constructor of `Instr`, each one call of its meaning. -/

namespace Sys2Proof.Machine

/-- The meaning of an instruction, in a state from which its input has been taken (spec/10_state.md R21). -/
def exec (i : Instr) (s : State) : Host.Outcome State Fault Refusal :=
  match i with
  | .decNoteOffStatus chan => Sys2Proof.Machine.execDecNoteOffStatus chan s
  | .decNoteOnStatus chan => Sys2Proof.Machine.execDecNoteOnStatus chan s
  | .decPolyPressureStatus chan => Sys2Proof.Machine.execDecPolyPressureStatus chan s
  | .decControllerStatus chan => Sys2Proof.Machine.execDecControllerStatus chan s
  | .decProgramChangeStatus chan => Sys2Proof.Machine.execDecProgramChangeStatus chan s
  | .decChannelPressureStatus chan => Sys2Proof.Machine.execDecChannelPressureStatus chan s
  | .decPitchBendStatus chan => Sys2Proof.Machine.execDecPitchBendStatus chan s
  | .decSysexStart => Sys2Proof.Machine.execDecSysexStart s
  | .decQuarterFrame => Sys2Proof.Machine.execDecQuarterFrame s
  | .decSongPosition => Sys2Proof.Machine.execDecSongPosition s
  | .decSongSelect => Sys2Proof.Machine.execDecSongSelect s
  | .decUndefinedF4 => Sys2Proof.Machine.execDecUndefinedF4 s
  | .decPortSelect => Sys2Proof.Machine.execDecPortSelect s
  | .decTuneRequest => Sys2Proof.Machine.execDecTuneRequest s
  | .decEox => Sys2Proof.Machine.execDecEox s
  | .decClock => Sys2Proof.Machine.execDecClock s
  | .decTick => Sys2Proof.Machine.execDecTick s
  | .decStart => Sys2Proof.Machine.execDecStart s
  | .decContinue => Sys2Proof.Machine.execDecContinue s
  | .decStop => Sys2Proof.Machine.execDecStop s
  | .decUndefinedFD => Sys2Proof.Machine.execDecUndefinedFD s
  | .decActiveSensing => Sys2Proof.Machine.execDecActiveSensing s
  | .decReset => Sys2Proof.Machine.execDecReset s
  | .decData value => Sys2Proof.Machine.execDecData value s
  | .encNoteOff chan d1 d2 port => Sys2Proof.Machine.execEncNoteOff chan d1 d2 port s
  | .encNoteOn chan d1 d2 port => Sys2Proof.Machine.execEncNoteOn chan d1 d2 port s
  | .encPolyPress chan d1 d2 port => Sys2Proof.Machine.execEncPolyPress chan d1 d2 port s
  | .encControl chan d1 d2 port => Sys2Proof.Machine.execEncControl chan d1 d2 port s
  | .encProgram chan d1 port => Sys2Proof.Machine.execEncProgram chan d1 port s
  | .encChanPress chan d1 port => Sys2Proof.Machine.execEncChanPress chan d1 port s
  | .encPitchBend chan val port => Sys2Proof.Machine.execEncPitchBend chan val port s
  | .encQFrame val port => Sys2Proof.Machine.execEncQFrame val port s
  | .encSongPos val port => Sys2Proof.Machine.execEncSongPos val port s
  | .encSongSel val port => Sys2Proof.Machine.execEncSongSel val port s
  | .encTuneReq port => Sys2Proof.Machine.execEncTuneReq port s
  | .encClock port => Sys2Proof.Machine.execEncClock port s
  | .encTick port => Sys2Proof.Machine.execEncTick port s
  | .encStart port => Sys2Proof.Machine.execEncStart port s
  | .encContinue port => Sys2Proof.Machine.execEncContinue port s
  | .encStop port => Sys2Proof.Machine.execEncStop port s
  | .encActSense port => Sys2Proof.Machine.execEncActSense port s
  | .encSysReset port => Sys2Proof.Machine.execEncSysReset port s
  | .encSysEx payload port => Sys2Proof.Machine.execEncSysEx payload port s
  | .encCc14 chan param val port => Sys2Proof.Machine.execEncCc14 chan param val port s
  | .encNrpn chan param val port => Sys2Proof.Machine.execEncNrpn chan param val port s
  | .encRpn chan param val port => Sys2Proof.Machine.execEncRpn chan param val port s
  | .ctlDecReset => Sys2Proof.Machine.execCtlDecReset s
  | .ctlDecRxError => Sys2Proof.Machine.execCtlDecRxError s
  | .ctlDecInRouteReset => Sys2Proof.Machine.execCtlDecInRouteReset s
  | .ctlDecDstatClear => Sys2Proof.Machine.execCtlDecDstatClear s
  | .ctlDecStatusRead => Sys2Proof.Machine.execCtlDecStatusRead s
  | .ctlEncReset => Sys2Proof.Machine.execCtlEncReset s
  | .ctlEncWriteError => Sys2Proof.Machine.execCtlEncWriteError s
  | .ctlEncIdleExpired => Sys2Proof.Machine.execCtlEncIdleExpired s
  | .ctlEncSubsEdge => Sys2Proof.Machine.execCtlEncSubsEdge s
  | .ctlEncEstatClear => Sys2Proof.Machine.execCtlEncEstatClear s
  | .ctlEncStatusRead => Sys2Proof.Machine.execCtlEncStatusRead s

end Sys2Proof.Machine
end

