-- ==== Sys2Proof/Machine/Step.lean ====
section
/-! DEFINITION. One step: the environment's next input is taken, decoded and run (spec/10_state.md R21,
spec/44_control.md R230). -/

namespace Sys2Proof.Machine

/-- The step. With no input left neither agent takes a step and the state is kept unchanged (R231,
R250). A command with an unlisted selector is refused as R86 and R189 say, which is a next state; a
control code outside R84 has no meaning. -/
def step (s : State) : Host.Outcome State Fault Refusal :=
  match s.inputs with
  | [] => .next s
  | input :: rest =>
    match decode input with
    | .ok i => exec i { s with inputs := rest }
    | .error (.unlistedSelector _) => .next (rejectCommand { s with inputs := rest })
    | .error (.reservedDecControl code) => .refused (.reservedControl code)
    | .error (.reservedEncControl code) => .refused (.reservedControl code)

/-- `s` with the input of an opcode-table word presented next (`tableInput`); nothing else changes. -/
def State.withFetchWord (s : State) (nbits w : Nat) : State :=
  { s with inputs := tableInput nbits w :: s.inputs }

end Sys2Proof.Machine
end

