-- ==== Sys2Proof/Safety.lean ====
section
/-! DEFINITION. The terms the claims are stated in: the agents, the invariants of spec/10_state.md R36 and
of the registers' legal values, the ranges of spec/40_decoder.md R133, `Accept` (spec/42_encoder.md R161)
on a command record, what a port announcement contributes (spec/43_port_router.md R206), and a decoder
fed with bytes. A safe run is one whose states meet `State.Inv`. -/

namespace Sys2Proof

/-- The two agents (R20). -/
inductive Agent where
  | dec
  | enc
  deriving DecidableEq, Repr

/-- The agent that takes an input (R20, R84). -/
def Input.agent : Input → Agent
  | .wire _ | .decControl _ => .dec
  | .command _ | .encControl _ => .enc

/-- The agent whose step an instruction is (R20, R84). -/
def Instr.agent : Instr → Agent
  | .decNoteOffStatus _ | .decNoteOnStatus _ | .decPolyPressureStatus _
  | .decControllerStatus _ | .decProgramChangeStatus _ | .decChannelPressureStatus _
  | .decPitchBendStatus _ | .decSysexStart | .decQuarterFrame | .decSongPosition
  | .decSongSelect | .decUndefinedF4 | .decPortSelect | .decTuneRequest | .decEox | .decClock
  | .decTick | .decStart | .decContinue | .decStop | .decUndefinedFD | .decActiveSensing
  | .decReset | .decData _ | .ctlDecReset | .ctlDecRxError | .ctlDecInRouteReset
  | .ctlDecDstatClear | .ctlDecStatusRead => .dec
  | .encNoteOff _ _ _ _ | .encNoteOn _ _ _ _ | .encPolyPress _ _ _ _ | .encControl _ _ _ _
  | .encProgram _ _ _ | .encChanPress _ _ _ | .encPitchBend _ _ _ | .encQFrame _ _
  | .encSongPos _ _ | .encSongSel _ _ | .encTuneReq _ | .encClock _ | .encTick _ | .encStart _
  | .encContinue _ | .encStop _ | .encActSense _ | .encSysReset _ | .encSysEx _ _
  | .encCc14 _ _ _ _ | .encNrpn _ _ _ _ | .encRpn _ _ _ _ | .ctlEncReset | .ctlEncWriteError
  | .ctlEncIdleExpired | .ctlEncSubsEdge | .ctlEncEstatClear | .ctlEncStatusRead => .enc

/-- `Accept(cmd)` (R161), its four checks in order. -/
def Command.accept (cfg : Config) (c : Command) : Bool :=
  acceptedSelectors.contains c.sel
  && (decide (c.cls ≠ 4#3) || cfg.extCc)
  && (decide (cfg.nPorts = 1) || (decide (1 ≤ c.port.toNat) && decide (c.port.toNat ≤ cfg.nPorts)))
  && (decide (c.sel ≠ 0x40#7) || decide (c.param.toNat ≤ 31))

namespace Machine

/-! ### Bytes -/

/-- A data byte (R70). -/
abbrev isData (b : Byte) : Prop := b.toNat < 0x80

/-- A channel-voice status byte (R71). -/
abbrev isChannelVoice (b : Byte) : Prop := 0x80 ≤ b.toNat ∧ b.toNat ≤ 0xEF

/-- A real-time byte (R71). -/
abbrev isRealTime (b : Byte) : Prop := 0xF8 ≤ b.toNat

/-- The frame length of a status byte, by the table of R72; a byte that starts no frame has none. -/
def frameLength (cfg : Config) (b : Byte) : Option Nat :=
  let v := b.toNat
  if v < 0x80 then none
  else if v ≤ 0xBF then some 3
  else if v ≤ 0xDF then some 2
  else if v ≤ 0xEF then some 3
  else if v = 0xF0 then some cfg.sysexCap
  else if v = 0xF2 then some 3
  else if v ≤ 0xF5 then some 2
  else if v = 0xF6 then some 1
  else if v = 0xF7 then none
  else some 1

/-! ### Invariants -/

/-- What holds of DEC's registers between steps: the six items of R36, in order, then the legal values of
`rs` (R22) and of `DSTAT`'s reserved bits (R28), the frame's bytes after the first being data bytes
(R23, R126), and the buffer's canonical form with no element beyond `SYSEX_CAP`. -/
abbrev DecState.Inv (cfg : Config) (d : DecState) : Prop :=
  d.pos < cfg.sysexCap
  ∧ (d.rs ≠ 0x00#8 → 1 ≤ d.pos ∧ Memory.read d.buf 0 = d.rs)
  ∧ (1 ≤ d.pos → 0x80 ≤ (Memory.read d.buf 0).toNat ∧ (Memory.read d.buf 0).toNat ≤ 0xF5
      ∧ frameLength cfg (Memory.read d.buf 0) = some d.exp)
  ∧ (1 ≤ d.pos → 0xF0 ≤ (Memory.read d.buf 0).toNat → d.rs = 0x00#8)
  ∧ (1 ≤ d.pos → d.pos < d.exp)
  ∧ (1 ≤ d.inPort ∧ d.inPort ≤ cfg.nPorts)
  ∧ (d.rs = 0x00#8 ∨ isChannelVoice d.rs)
  ∧ d.dstat &&& 0xF8#8 = 0x00#8
  ∧ (∀ a < d.pos, 1 ≤ a → isData (Memory.read d.buf a))
  ∧ Memory.wf d.buf
  ∧ (∀ c ∈ d.buf, c.1 < cfg.sysexCap)

/-- What holds of ENC's registers between steps: the legal values of `rs_out` (R29), `last_idx` (R31) and
`ESTAT`'s reserved bits (R32). -/
abbrev EncState.Inv (cfg : Config) (e : EncState) : Prop :=
  (e.rsOut = 0x00#8 ∨ isChannelVoice e.rsOut)
  ∧ (-1 ≤ e.lastIdx ∧ e.lastIdx ≤ (cfg.nPorts : Int) - 1)
  ∧ e.estat &&& 0xFE#8 = 0x00#8

/-- The invariant of a safe run. -/
abbrev State.Inv (s : State) : Prop := s.dec.Inv s.cfg ∧ s.enc.Inv s.cfg

/-! ### Event records -/

/-- Whether a record's `val` is a biased 14-bit value: PitchBend and SongPosition (R80, R133). -/
abbrev Event.isBiased (e : Event) : Prop :=
  (e.cls = .cv ∧ e.kind = 0xE#4) ∨ (e.cls = .sc ∧ e.kind = 0x2#4)

/-- The ranges of R133 (`chan`, `d1` and `d2` are in range by their types), with what they rest on: the
status byte is the frame's first, and a frame's other bytes are data bytes, an `F7` that ends a SysEx
frame apart. -/
abbrev Event.Legal (cfg : Config) (e : Event) : Prop :=
  (e.isBiased → -8192 ≤ e.val ∧ e.val ≤ 8191)
  ∧ (¬ e.isBiased → 0 ≤ e.val ∧ e.val ≤ 127)
  ∧ (1 ≤ e.port ∧ e.port ≤ cfg.nPorts)
  ∧ e.raw.head? = some e.status
  ∧ e.raw.length ≤ cfg.sysexCap
  ∧ (∀ b ∈ e.raw.tail, isData b ∨ (e.cls = .sx ∧ e.eox = true ∧ b = 0xF7#8))

/-! ### ENC's output -/

/-- The low 14 bits of `w` as two data bytes, least significant first (R169, R172). -/
def lsbFirst (w : Int) : List Byte :=
  [BitVec.ofInt 8 (w % 16384 % 128), BitVec.ofInt 8 (w % 16384 / 128)]

/-- The bytes an accepted command puts out of its own when `rs_out` is `rs`, by its class and kind:
`CvOut` (R162 to R169), `ScOut` (R170 to R174), `RtOut` (R175), `SxOut` (R183), `X14Out` (R184 to
R187). -/
def ownBytes (c : Command) (rs : Byte) : List Byte :=
  let value := c.val.toInt
  let msb (w : Int) : Byte := BitVec.ofInt 8 (w % 16384 / 128)
  let lsb (w : Int) : Byte := BitVec.ofInt 8 (w % 16384 % 128)
  if c.cls = 0#3 then
    (if c.kind ++ c.chan = rs then [] else [c.kind ++ c.chan])
      ++ (if c.kind = 0xE#4 then lsbFirst (value + 8192)
          else if c.kind = 0xC#4 ∨ c.kind = 0xD#4 then [c.d1 &&& 0x7F#8]
          else [c.d1 &&& 0x7F#8, c.d2 &&& 0x7F#8])
  else if c.cls = 1#3 then
    (0xF#4 ++ c.kind) :: (if c.kind = 2#4 then lsbFirst (value + 8192)
      else if c.kind = 6#4 then [] else [BitVec.ofInt 8 (value % 128)])
  else if c.cls = 2#3 then [0xF#4 ++ c.kind]
  else if c.cls = 3#3 then c.payload
  else (0xB#4 ++ c.chan) ::
    (if c.kind = 0#4 then
      [c.param.setWidth 8, msb value, c.param.setWidth 8 + 0x20#8, lsb value]
    else
      [if c.kind = 1#4 then 0x63#8 else 0x65#8, msb c.param.toNat,
       if c.kind = 1#4 then 0x62#8 else 0x64#8, lsb c.param.toNat,
       0x06#8, msb value, 0x26#8, lsb value])

/-- What an accepted command leaves in `rs_out` when it found `rs` there: its status byte (R162, R184),
`rs` itself (R175), or 0 (R170, R183). -/
def ownRs (c : Command) (rs : Byte) : Byte :=
  if c.cls = 0#3 then c.kind ++ c.chan
  else if c.cls = 2#3 then rs
  else if c.cls = 4#3 then 0xB#4 ++ c.chan
  else 0x00#8

/-- An accepted command for `port` is preceded by a port-select frame (R200, R206). -/
def announces (s : State) (port : Nat) : Bool :=
  decide (s.cfg.nPorts ≠ 1) && decide (s.enc.lastIdx ≠ (port : Int) - 1)

/-- The bytes of that port-select frame, if one is sent (R206, R207). -/
def routeBytes (s : State) (port : Nat) : List Byte :=
  if announces s port then [0xF5#8, BitVec.ofNat 8 port] else []

/-- `rs_out` as the command's own bytes see it (R160, R208). -/
def routeRs (s : State) (port : Nat) : Byte := if announces s port then 0x00#8 else s.enc.rsOut

/-- The state after an accepted command for `port` has put out `bytes` of its own and left `rs` in
`rs_out`: nothing else of the state has changed. -/
def sent (s : State) (port : Nat) (bytes : List Byte) (rs : Byte) : State :=
  { s with
    wireOut := s.wireOut ++ routeBytes s port ++ bytes
    enc := { rsOut := rs
             lastIdx := if announces s port then (port : Int) - 1 else s.enc.lastIdx
             estat := s.enc.estat } }

/-- The state after a refused command (R189): nothing but `ESTAT.REJECT` has changed. -/
def rejected (s : State) : State :=
  { s with enc := { s.enc with estat := s.enc.estat ||| 0x01#8 } }

/-! ### A decoder fed with bytes -/

/-- DEC's steps on the wire bytes `bytes`, in order; the first fault or refusal ends them. -/
def feed (bytes : List Byte) (s : State) : Host.Outcome State Fault Refusal :=
  match bytes with
  | [] => .next s
  | b :: rest =>
    match exec (decodeWire b) s with
    | .next t => feed rest t
    | .fault f => .fault f
    | .refused r => .refused r

/-- The encoder's running status is the decoder's, and the decoder is at a frame boundary (R191). -/
abbrev runningStatusAgrees (e : EncState) (d : DecState) : Prop :=
  e.rsOut ≠ 0x00#8 → d.rs = e.rsOut ∧ d.pos = 1

/-- The bytes that ENC's instruction `i` for `port` puts out in `s`, fed to the decoder of `d`, give a
channel-voice record that meets `P`, attributed to the decoder's port; a record of the port selection
comes first if the bytes begin with a port-select frame; nothing else is emitted (R190). -/
def bringsBack (s d : State) (i : Instr) (port : Nat) (P : Event → Prop) : Prop :=
  ∃ t bytes u e, exec i s = .next t ∧ t.wireOut = s.wireOut ++ bytes ∧ feed bytes d = .next u
    ∧ u.events = d.events
        ++ (if announces s port then [psEvent (BitVec.ofNat 8 port) port] else []) ++ [e]
    ∧ e.cls = .cv ∧ e.port = u.dec.inPort ∧ P e

/-- Two decoder states that differ at most in what no rule reads: buffer elements at index `pos` and
above (R23), and `exp` while `pos = 0` (R25). -/
abbrev DecState.alike (d d' : DecState) : Prop :=
  d.rs = d'.rs ∧ d.pos = d'.pos ∧ d.inPort = d'.inPort ∧ d.dstat = d'.dstat
  ∧ (1 ≤ d.pos → d.exp = d'.exp)
  ∧ (∀ a < d.pos, Memory.read d.buf a = Memory.read d'.buf a)

end Machine

end Sys2Proof
end

