-- ==== Sys2Proof/Certificates/Slice0/Obligations.lean ====
section
/-! DEFINITION. The statements about the block. A statement about an instruction gives its whole next
state or names every field that changes; `t = { s with dec := t.dec }` says that nothing but DEC's
registers has changed. Results are written with plain arithmetic where the model has its own helpers. -/

open Sys2Proof Sys2Proof.Machine

/-! ### Inputs and the step -/

/-- Decoding the input of a well-formed instruction gives the instruction back
(spec/30_encoding.md R71, R81 to R84). -/
def Obligations.DecodeOfEncodeGivesInstruction : Prop :=
  ∀ i : Instr, i.wellFormed = true → decode (encode i) = .ok i

/-- Whatever decodes, decodes to a well-formed instruction of the agent that took the input; a wire byte
or control code is the one input of its instruction, and a command's selector and port survive. -/
def Obligations.DecodedInputIsCanonical : Prop :=
  ∀ (input : Input) (i : Instr), decode input = .ok i →
    i.wellFormed = true ∧ i.agent = input.agent
    ∧ (∀ c, input = .command c →
        ∃ c', encode i = .command c' ∧ c'.sel = c.sel ∧ c'.port = c.port)
    ∧ ((∀ c, input ≠ .command c) → encode i = input)

/-- A command decodes exactly when `cls * 16 + kind` is one of the 22 selectors of R83. -/
def Obligations.ExactlyTheListedSelectorsDecode : Prop :=
  ∀ c : Command, (∃ i, decode (.command c) = .ok i) ↔
    c.cls.toNat * 16 + c.kind.toNat ∈
      [0x08, 0x09, 0x0A, 0x0B, 0x0C, 0x0D, 0x0E, 0x11, 0x12, 0x13, 0x16,
       0x28, 0x29, 0x2A, 0x2B, 0x2C, 0x2E, 0x2F, 0x30, 0x40, 0x41, 0x42]

/-- Words written out from R71, R83 and R84 decode to the instructions they stand for. -/
def Obligations.SampleInputsDecode : Prop :=
  decode (.wire 0x93#8) = .ok (.decNoteOnStatus 3#4)
  ∧ decode (.wire 0xF5#8) = .ok .decPortSelect
  ∧ decode (.wire 0xFE#8) = .ok .decActiveSensing
  ∧ decode (.wire 0x7F#8) = .ok (.decData 0x7F#7)
  ∧ decode (.command { Command.bare 0#3 0xE#4 with chan := 3#4, val := 0xFFFF#16, port := 2#5 })
      = .ok (.encPitchBend 3#4 (-1) 2)
  ∧ decode (.decControl 1#3) = .ok .ctlDecRxError
  ∧ decode (.encControl 1#3) = .ok .ctlEncWriteError

/-- When the next input decodes, a step takes it and runs its instruction. -/
def Obligations.StepRunsDecodedInstruction : Prop :=
  ∀ (s : State) (input : Input) (rest : List Input) (i : Instr),
    s.inputs = input :: rest → decode input = .ok i →
    step s = exec i { s with inputs := rest }

/-- With no input neither agent takes a step and the state is kept. The form of the empty step is the
model's choice (notes/assumptions/3.md). -/
def Obligations.StepWithoutInputKeepsState : Prop :=
  ∀ s : State, s.inputs = [] → step s = .next s

/-- The model's choice (notes/assumptions/5.md): a control code that R84 gives no event is refused by
name. -/
def Obligations.ReservedControlCodeIsRefused : Prop :=
  ∀ (s : State) (rest : List Input) (code : BitVec 3),
    (5 ≤ code.toNat → s.inputs = .decControl code :: rest →
      step s = .refused (.reservedControl code))
    ∧ (6 ≤ code.toNat → s.inputs = .encControl code :: rest →
      step s = .refused (.reservedControl code))

/-- No instruction writes the configuration (R33) or the inputs still to come. -/
def Obligations.ConfigurationAndInputsAreKept : Prop :=
  ∀ (i : Instr) (s t : State), exec i s = .next t → t.cfg = s.cfg ∧ t.inputs = s.inputs

/-! ### DEC: status bytes -/

/-- R102 for the seven channel-voice status bytes: a new frame is open under the byte's running status; an
open SysEx frame is abandoned with `SX_ABORT`. -/
def Obligations.ChannelVoiceStatusOpensFrame : Prop :=
  ∀ (s : State) (chan : Nibble),
    ∀ p ∈ [((0x8#4 : Nibble), Instr.decNoteOffStatus), (0x9#4, Instr.decNoteOnStatus),
      (0xA#4, Instr.decPolyPressureStatus), (0xB#4, Instr.decControllerStatus),
      (0xC#4, Instr.decProgramChangeStatus), (0xD#4, Instr.decChannelPressureStatus),
      (0xE#4, Instr.decPitchBendStatus)],
    ∃ t, exec (p.2 chan) s = .next t
      ∧ t.dec.rs = p.1 ++ chan
      ∧ Memory.read t.dec.buf 0 = p.1 ++ chan
      ∧ (∀ a, a ≠ 0 → Memory.read t.dec.buf a = Memory.read s.dec.buf a)
      ∧ t.dec.pos = 1
      ∧ t.dec.exp = (if p.1 = 0xC#4 ∨ p.1 = 0xD#4 then 2 else 3)
      ∧ t.dec.inPort = s.dec.inPort
      ∧ t.dec.dstat = (if s.dec.sxOpen then s.dec.dstat ||| 0x02#8 else s.dec.dstat)
      ∧ t = { s with dec := t.dec }

/-- The five system-common status bytes that open a frame (R119) clear running status. -/
def Obligations.SystemCommonStatusOpensFrame : Prop :=
  ∀ s : State,
    ∀ p ∈ [((0xF1#8 : Byte), Instr.decQuarterFrame), (0xF2#8, Instr.decSongPosition),
      (0xF3#8, Instr.decSongSelect), (0xF4#8, Instr.decUndefinedF4), (0xF5#8, Instr.decPortSelect)],
    ∃ t, exec p.2 s = .next t
      ∧ t.dec.rs = 0x00#8
      ∧ Memory.read t.dec.buf 0 = p.1
      ∧ (∀ a, a ≠ 0 → Memory.read t.dec.buf a = Memory.read s.dec.buf a)
      ∧ t.dec.pos = 1
      ∧ t.dec.exp = (if p.1 = 0xF2#8 then 3 else 2)
      ∧ t.dec.inPort = s.dec.inPort
      ∧ t.dec.dstat = (if s.dec.sxOpen then s.dec.dstat ||| 0x02#8 else s.dec.dstat)
      ∧ t = { s with dec := t.dec }

/-- R125: `F6` emits its record at once and leaves no open frame and no running status, so that a data
byte after it is discarded. -/
def Obligations.TuneRequestEmitsAtOnce : Prop :=
  decode (.wire 0xF6#8) = .ok .decTuneRequest
  ∧ ∀ s : State, ∃ t, exec .decTuneRequest s = .next t
    ∧ t = { s with
        dec := { s.dec with
          rs := 0x00#8, pos := 0
          dstat := if s.dec.sxOpen then s.dec.dstat ||| 0x02#8 else s.dec.dstat }
        events := s.events ++
          [{ cls := .sc, kind := 6#4, status := 0xF6#8, chan := 0#4, d1 := 0#7, d2 := 0#7
             hasD2 := false, val := 0, raw := [0xF6#8], eox := false, port := s.dec.inPort }] }
    ∧ ∀ v, exec (.decData v) t = .next t

/-- R140: `F0` opens a SysEx frame bounded by `SYSEX_CAP`. -/
def Obligations.SysexStartOpensFrame : Prop :=
  decode (.wire 0xF0#8) = .ok .decSysexStart
  ∧ ∀ s : State, ∃ t, exec .decSysexStart s = .next t
    ∧ t.dec.sxOpen = true
    ∧ t.dec.rs = 0x00#8
    ∧ Memory.read t.dec.buf 0 = 0xF0#8
    ∧ (∀ a, a ≠ 0 → Memory.read t.dec.buf a = Memory.read s.dec.buf a)
    ∧ t.dec.pos = 1
    ∧ t.dec.exp = s.cfg.sysexCap
    ∧ t.dec.inPort = s.dec.inPort
    ∧ t.dec.dstat = (if s.dec.sxOpen then s.dec.dstat ||| 0x02#8 else s.dec.dstat)
    ∧ t = { s with dec := t.dec }

/-- R145: a status byte other than real-time and other than `F7` abandons an open SysEx frame: it acts as
it would with no frame open and `SX_ABORT` set, and emits nothing of the abandoned frame (only `F6`
emits, its own record). -/
def Obligations.StatusByteAbortsOpenSysex : Prop :=
  ∀ (s : State) (b : Byte), s.dec.sxOpen = true → 0x80 ≤ b.toNat → b.toNat < 0xF8 → b ≠ 0xF7#8 →
    exec (decodeWire b) s =
      exec (decodeWire b)
        { s with dec := { s.dec with pos := 0, dstat := s.dec.dstat ||| 0x02#8 } }
    ∧ ∃ t, exec (decodeWire b) s = .next t
      ∧ t.dec.dstat = s.dec.dstat ||| 0x02#8
      ∧ (b ≠ 0xF6#8 → t.events = s.events)

/-- R142: `F7` while a SysEx frame is open emits the whole frame, both markers included. -/
def Obligations.EndOfSysexEmitsFrame : Prop :=
  decode (.wire 0xF7#8) = .ok .decEox
  ∧ ∀ s : State, s.dec.sxOpen = true → s.dec.pos < s.cfg.sysexCap →
    ∃ t, exec .decEox s = .next t
      ∧ t.events = s.events ++
        [{ cls := .sx, kind := 0#4, status := 0xF0#8, chan := 0#4, d1 := 0#7, d2 := 0#7
           hasD2 := false, val := 0
           raw := (List.range s.dec.pos).map (Memory.read s.dec.buf) ++ [0xF7#8]
           eox := true, port := s.dec.inPort }]
      ∧ Memory.read t.dec.buf s.dec.pos = 0xF7#8
      ∧ (∀ a, a ≠ s.dec.pos → Memory.read t.dec.buf a = Memory.read s.dec.buf a)
      ∧ t.dec = { s.dec with rs := 0x00#8, pos := 0, buf := t.dec.buf }
      ∧ t = { s with dec := t.dec, events := t.events }

/-- R143: `F7` with no open SysEx frame clears running status and drops any partial frame. -/
def Obligations.StrayEndOfSysexClearsRunningStatus : Prop :=
  decode (.wire 0xF7#8) = .ok .decEox
  ∧ ∀ s : State, s.dec.sxOpen = false →
    exec .decEox s = .next { s with dec := { s.dec with rs := 0x00#8, pos := 0 } }

/-- R110 for the eight real-time bytes: the record, and nothing else. -/
def Obligations.RealTimeByteOnlyEmits : Prop :=
  ∀ s : State,
    ∀ p ∈ [((0xF8#8 : Byte), (0x8#4 : Nibble), Instr.decClock), (0xF9#8, 0x9#4, Instr.decTick),
      (0xFA#8, 0xA#4, Instr.decStart), (0xFB#8, 0xB#4, Instr.decContinue),
      (0xFC#8, 0xC#4, Instr.decStop), (0xFD#8, 0xD#4, Instr.decUndefinedFD),
      (0xFE#8, 0xE#4, Instr.decActiveSensing), (0xFF#8, 0xF#4, Instr.decReset)],
    decode (.wire p.1) = .ok p.2.2
    ∧ exec p.2.2 s = .next { s with events := s.events ++
      [{ cls := .rt, kind := p.2.1, status := p.1, chan := 0#4, d1 := 0#7, d2 := 0#7
         hasD2 := false, val := 0, raw := [p.1], eox := false, port := s.dec.inPort }] }

/-- The inference that R110 marks as derived: after a real-time byte every instruction does what it would
have done without it. Where it completes, the two next states are the same but for the records, and it
emits the same new ones; where it stops, it stops in the same way. -/
def Obligations.RealTimeByteIsTransparent : Prop :=
  ∀ (s : State) (b : Byte) (i : Instr), isRealTime b →
    ∃ s1, exec (decodeWire b) s = .next s1
      ∧ (∀ t, exec i s = .next t →
          ∃ new, t.events = s.events ++ new
            ∧ exec i s1 = .next { t with events := s1.events ++ new })
      ∧ (∀ f, exec i s = .fault f → exec i s1 = .fault f)
      ∧ (∀ r, exec i s = .refused r → exec i s1 = .refused r)

/-! ### DEC: data bytes -/

/-- A data byte with no open frame is discarded (R126). -/
def Obligations.StrayDataByteIsDiscarded : Prop :=
  ∀ (s : State) (v : Data7), s.dec.rs = 0x00#8 → s.dec.pos = 0 →
    exec (.decData v) s = .next s

/-- R141 and R144: a data byte in an open SysEx frame is stored; the one that fills the buffer emits the
truncated frame, sets `SX_TRUNC` and closes the frame. -/
def Obligations.SysexDataIsStoredOrTruncates : Prop :=
  ∀ (s : State) (v : Data7), s.dec.sxOpen = true → s.dec.pos < s.cfg.sysexCap →
    ∃ t, exec (.decData v) s = .next t
      ∧ Memory.read t.dec.buf s.dec.pos = v.setWidth 8
      ∧ (∀ a, a ≠ s.dec.pos → Memory.read t.dec.buf a = Memory.read s.dec.buf a)
      ∧ (if s.dec.pos + 1 = s.cfg.sysexCap then
          t.dec = { s.dec with pos := 0, dstat := s.dec.dstat ||| 0x01#8, buf := t.dec.buf }
          ∧ t.events = s.events ++
            [{ cls := .sx, kind := 0#4, status := 0xF0#8, chan := 0#4, d1 := 0#7, d2 := 0#7
               hasD2 := false, val := 0
               raw := (List.range s.dec.pos).map (Memory.read s.dec.buf) ++ [v.setWidth 8]
               eox := false, port := s.dec.inPort }]
        else
          t.dec = { s.dec with pos := s.dec.pos + 1, buf := t.dec.buf } ∧ t.events = s.events)
      ∧ t = { s with dec := t.dec, events := t.events }

/-- A data byte that does not complete an open frame other than SysEx is stored, with no event
(R126). -/
def Obligations.DataByteExtendsOpenFrame : Prop :=
  ∀ (s : State) (v : Data7), s.dec.sxOpen = false → 1 ≤ s.dec.pos → s.dec.pos + 1 < s.dec.exp →
    s.dec.pos < s.cfg.sysexCap →
    ∃ t, exec (.decData v) s = .next t
      ∧ Memory.read t.dec.buf s.dec.pos = v.setWidth 8
      ∧ (∀ a, a ≠ s.dec.pos → Memory.read t.dec.buf a = Memory.read s.dec.buf a)
      ∧ t.dec = { s.dec with pos := s.dec.pos + 1, buf := t.dec.buf }
      ∧ t = { s with dec := t.dec }

/-- The data byte of a ProgramChange or ChannelPressure frame completes it (R107, R108, R127, R128);
running status goes on. -/
def Obligations.OneDataChannelVoiceFrameCompletes : Prop :=
  ∀ (s : State) (chan : Nibble) (v : Data7), ∀ kind ∈ [(0xC#4 : Nibble), 0xD#4],
    s.dec.rs = kind ++ chan → Memory.read s.dec.buf 0 = kind ++ chan →
    s.dec.pos = 1 → s.dec.exp = 2 →
    ∃ t, exec (.decData v) s = .next t
      ∧ t.events = s.events ++
        [{ cls := .cv, kind := kind, status := kind ++ chan, chan := chan, d1 := v, d2 := 0#7
           hasD2 := false, val := 0, raw := [kind ++ chan, v.setWidth 8], eox := false
           port := s.dec.inPort }]
      ∧ Memory.read t.dec.buf 1 = v.setWidth 8
      ∧ (∀ a, a ≠ 1 → Memory.read t.dec.buf a = Memory.read s.dec.buf a)
      ∧ t.dec = { s.dec with pos := 1, buf := t.dec.buf }
      ∧ t = { s with dec := t.dec, events := t.events }

/-- The second data byte of any other channel-voice frame completes it (R103 to R106, R109, R127,
R128); running status goes on. PitchBend's value is biased by 8192 (R74). -/
def Obligations.TwoDataChannelVoiceFrameCompletes : Prop :=
  ∀ (s : State) (chan : Nibble) (d1 v : Data7),
    ∀ kind ∈ [(0x8#4 : Nibble), 0x9#4, 0xA#4, 0xB#4, 0xE#4],
    s.dec.rs = kind ++ chan → Memory.read s.dec.buf 0 = kind ++ chan →
    Memory.read s.dec.buf 1 = d1.setWidth 8 → s.dec.pos = 2 → s.dec.exp = 3 →
    ∃ t, exec (.decData v) s = .next t
      ∧ t.events = s.events ++
        [{ cls := .cv, kind := kind, status := kind ++ chan, chan := chan, d1 := d1, d2 := v
           hasD2 := true
           val := if kind = 0xE#4 then (d1.toNat : Int) + 128 * (v.toNat : Int) - 8192 else 0
           raw := [kind ++ chan, d1.setWidth 8, v.setWidth 8], eox := false
           port := s.dec.inPort }]
      ∧ Memory.read t.dec.buf 2 = v.setWidth 8
      ∧ (∀ a, a ≠ 2 → Memory.read t.dec.buf a = Memory.read s.dec.buf a)
      ∧ t.dec = { s.dec with pos := 1, buf := t.dec.buf }
      ∧ t = { s with dec := t.dec, events := t.events }

/-- The data byte of a QuarterFrame, SongSelect or `F4` frame completes it (R120, R122, R123, R127,
R129); no running status remains. -/
def Obligations.OneDataSystemCommonFrameCompletes : Prop :=
  ∀ (s : State) (v : Data7),
    ∀ p ∈ [((0xF1#8 : Byte), (1#4 : Nibble)), (0xF3#8, 3#4), (0xF4#8, 4#4)],
    s.dec.rs = 0x00#8 → Memory.read s.dec.buf 0 = p.1 → s.dec.pos = 1 → s.dec.exp = 2 →
    ∃ t, exec (.decData v) s = .next t
      ∧ t.events = s.events ++
        [{ cls := .sc, kind := p.2, status := p.1, chan := 0#4, d1 := v, d2 := 0#7
           hasD2 := false, val := (v.toNat : Int), raw := [p.1, v.setWidth 8], eox := false
           port := s.dec.inPort }]
      ∧ Memory.read t.dec.buf 1 = v.setWidth 8
      ∧ (∀ a, a ≠ 1 → Memory.read t.dec.buf a = Memory.read s.dec.buf a)
      ∧ t.dec = { s.dec with pos := 0, buf := t.dec.buf }
      ∧ t = { s with dec := t.dec, events := t.events }

/-- The second data byte of a SongPosition frame completes it, its value biased by 8192 (R74, R121,
R127, R129). -/
def Obligations.SongPositionFrameCompletes : Prop :=
  ∀ (s : State) (d1 v : Data7),
    s.dec.rs = 0x00#8 → Memory.read s.dec.buf 0 = 0xF2#8 →
    Memory.read s.dec.buf 1 = d1.setWidth 8 → s.dec.pos = 2 → s.dec.exp = 3 →
    ∃ t, exec (.decData v) s = .next t
      ∧ t.events = s.events ++
        [{ cls := .sc, kind := 2#4, status := 0xF2#8, chan := 0#4, d1 := d1, d2 := v
           hasD2 := true, val := (d1.toNat : Int) + 128 * (v.toNat : Int) - 8192
           raw := [0xF2#8, d1.setWidth 8, v.setWidth 8], eox := false, port := s.dec.inPort }]
      ∧ Memory.read t.dec.buf 2 = v.setWidth 8
      ∧ (∀ a, a ≠ 2 → Memory.read t.dec.buf a = Memory.read s.dec.buf a)
      ∧ t.dec = { s.dec with pos := 0, buf := t.dec.buf }
      ∧ t = { s with dec := t.dec, events := t.events }

/-- R201 to R203: a complete port-select frame selects port 1 for the values 0 and `7F`, the port a value
names where there is one, and otherwise sets `PORT_RANGE`, emits nothing and keeps the port. -/
def Obligations.PortSelectFrameCompletes : Prop :=
  ∀ (s : State) (v : Data7),
    s.dec.rs = 0x00#8 → Memory.read s.dec.buf 0 = 0xF5#8 → s.dec.pos = 1 → s.dec.exp = 2 →
    ∃ t, exec (.decData v) s = .next t
      ∧ Memory.read t.dec.buf 1 = v.setWidth 8
      ∧ (∀ a, a ≠ 1 → Memory.read t.dec.buf a = Memory.read s.dec.buf a)
      ∧ (if v.toNat = 0 ∨ v.toNat = 127 ∨ v.toNat ≤ s.cfg.nPorts then
          ∃ port, port = (if v.toNat = 0 ∨ v.toNat = 127 then 1 else v.toNat)
          ∧ t.dec = { s.dec with pos := 0, inPort := port, buf := t.dec.buf }
          ∧ t.events = s.events ++
            [{ cls := .ps, kind := 5#4, status := 0xF5#8, chan := 0#4, d1 := v, d2 := 0#7
               hasD2 := false, val := 0, raw := [0xF5#8, v.setWidth 8], eox := false
               port := port }]
        else
          t.dec = { s.dec with pos := 0, dstat := s.dec.dstat ||| 0x04#8, buf := t.dec.buf }
          ∧ t.events = s.events)
      ∧ t = { s with dec := t.dec, events := t.events }

/-- The model's choice (notes/assumptions/6.md): where the buffer has no element left, a data byte and an
`F7` that ends a SysEx frame stop with a fault. No state that meets the invariant is such a state. -/
def Obligations.AppendBeyondBufferFaults : Prop :=
  ∀ s : State, s.cfg.sysexCap ≤ s.dec.pos →
    (∀ v, exec (.decData v) s = .fault .bufferOverrun)
    ∧ (s.dec.sxOpen = true → exec .decEox s = .fault .bufferOverrun)

/-! ### ENC -/

/-- A command record that `Accept` (R161) does not accept, an unlisted selector among them, sets
`ESTAT.REJECT` and changes nothing else. -/
def Obligations.RefusedCommandOnlySetsReject : Prop :=
  ∀ (s : State) (c : Command) (rest : List Input),
    s.inputs = .command c :: rest → c.accept s.cfg = false →
    step s = .next { s with
      inputs := rest, enc := { s.enc with estat := s.enc.estat ||| 0x01#8 } }

/-- An accepted command runs (R160, R206 to R208): a port-select frame comes first exactly when `N_PORTS`
is not 1 and the port is not the one last announced, then the command's own bytes as its record gives
them and nothing else; the port is then the one last announced, `rs_out` is what the command leaves,
with 0 in place of the old value where the port was announced, and everything else is kept. -/
def Obligations.AcceptedCommandAnnouncesPortFirst : Prop :=
  ∀ (s : State) (c : Command) (rest : List Input),
    s.inputs = .command c :: rest → c.accept s.cfg = true →
    (s.cfg.nPorts ≠ 1 ∧ s.enc.lastIdx ≠ (c.port.toNat : Int) - 1 →
      step s = .next { s with
        inputs := rest
        wireOut := s.wireOut ++ [0xF5#8, c.port.setWidth 8] ++ ownBytes c 0x00#8
        enc := { rsOut := ownRs c 0x00#8, lastIdx := (c.port.toNat : Int) - 1
                 estat := s.enc.estat } })
    ∧ (s.cfg.nPorts = 1 ∨ s.enc.lastIdx = (c.port.toNat : Int) - 1 →
      step s = .next { s with
        inputs := rest
        wireOut := s.wireOut ++ ownBytes c s.enc.rsOut
        enc := { s.enc with rsOut := ownRs c s.enc.rsOut } })

/-- NoteOff, NoteOn, PolyPressure and Controller (R162 to R166): the status byte unless `rs_out` equals
it, then both data fields masked to 7 bits. -/
def Obligations.TwoDataChannelVoiceCommandOutput : Prop :=
  ∀ (s : State) (chan : Nibble) (d1 d2 : Byte) (port : Nat),
    (s.cfg.nPorts = 1 ∨ (1 ≤ port ∧ port ≤ s.cfg.nPorts)) →
    ∀ p ∈ [((0x8#4 : Nibble), Instr.encNoteOff), (0x9#4, Instr.encNoteOn),
      (0xA#4, Instr.encPolyPress), (0xB#4, Instr.encControl)],
    exec (p.2 chan d1 d2 port) s = .next (sent s port
      ((if p.1 ++ chan = routeRs s port then [] else [p.1 ++ chan])
        ++ [d1 &&& 0x7F#8, d2 &&& 0x7F#8])
      (p.1 ++ chan))

/-- ProgramChange and ChannelPressure (R162, R167, R168). -/
def Obligations.OneDataChannelVoiceCommandOutput : Prop :=
  ∀ (s : State) (chan : Nibble) (d1 : Byte) (port : Nat),
    (s.cfg.nPorts = 1 ∨ (1 ≤ port ∧ port ≤ s.cfg.nPorts)) →
    ∀ p ∈ [((0xC#4 : Nibble), Instr.encProgram), (0xD#4, Instr.encChanPress)],
    exec (p.2 chan d1 port) s = .next (sent s port
      ((if p.1 ++ chan = routeRs s port then [] else [p.1 ++ chan]) ++ [d1 &&& 0x7F#8])
      (p.1 ++ chan))

/-- PitchBend (R162, R169): `val + 8192` modulo 16384, least significant 7 bits first. -/
def Obligations.PitchBendCommandOutput : Prop :=
  ∀ (s : State) (chan : Nibble) (val : Int) (port : Nat),
    (s.cfg.nPorts = 1 ∨ (1 ≤ port ∧ port ≤ s.cfg.nPorts)) →
    exec (.encPitchBend chan val port) s = .next (sent s port
      ((if 0xE#4 ++ chan = routeRs s port then [] else [0xE#4 ++ chan])
        ++ [BitVec.ofInt 8 ((val + 8192) % 16384 % 128),
            BitVec.ofInt 8 ((val + 8192) % 16384 / 128)])
      (0xE#4 ++ chan))

/-- QuarterFrame and SongSelect (R170, R171, R173): `val` modulo 128; `rs_out` is cleared. -/
def Obligations.OneDataSystemCommonCommandOutput : Prop :=
  ∀ (s : State) (val : Int) (port : Nat),
    (s.cfg.nPorts = 1 ∨ (1 ≤ port ∧ port ≤ s.cfg.nPorts)) →
    ∀ p ∈ [((0xF1#8 : Byte), Instr.encQFrame), (0xF3#8, Instr.encSongSel)],
    exec (p.2 val port) s = .next (sent s port [p.1, BitVec.ofInt 8 (val % 128)] 0x00#8)

/-- SongPosition (R170, R172): `val + 8192` modulo 16384, least significant 7 bits first. -/
def Obligations.SongPositionCommandOutput : Prop :=
  ∀ (s : State) (val : Int) (port : Nat),
    (s.cfg.nPorts = 1 ∨ (1 ≤ port ∧ port ≤ s.cfg.nPorts)) →
    exec (.encSongPos val port) s = .next (sent s port
      [0xF2#8, BitVec.ofInt 8 ((val + 8192) % 16384 % 128),
       BitVec.ofInt 8 ((val + 8192) % 16384 / 128)] 0x00#8)

/-- TuneRequest (R170, R174) and SysEx, whose payload goes out verbatim (R183): `rs_out` is cleared. -/
def Obligations.TuneRequestAndSysexCommandOutput : Prop :=
  ∀ (s : State) (payload : List Byte) (port : Nat),
    (s.cfg.nPorts = 1 ∨ (1 ≤ port ∧ port ≤ s.cfg.nPorts)) →
    exec (.encTuneReq port) s = .next (sent s port [0xF6#8] 0x00#8)
    ∧ exec (.encSysEx payload port) s = .next (sent s port payload 0x00#8)

/-- The seven real-time commands (R175 to R182): one byte, `rs_out` unchanged but for the port
announcement's clear. -/
def Obligations.RealTimeCommandOutput : Prop :=
  ∀ (s : State) (port : Nat),
    (s.cfg.nPorts = 1 ∨ (1 ≤ port ∧ port ≤ s.cfg.nPorts)) →
    ∀ p ∈ [((0xF8#8 : Byte), Instr.encClock), (0xF9#8, Instr.encTick), (0xFA#8, Instr.encStart),
      (0xFB#8, Instr.encContinue), (0xFC#8, Instr.encStop), (0xFE#8, Instr.encActSense),
      (0xFF#8, Instr.encSysReset)],
    exec (p.2 port) s = .next (sent s port [p.1] (routeRs s port))

/-- The 14-bit controller with `EXT_CC` (R184, R185): for a controller number up to 31 the status byte is
always sent, then the value's MSB under the controller and its LSB 32 controllers higher; a higher
controller number is refused. -/
def Obligations.Controller14CommandOutput : Prop :=
  ∀ (s : State) (chan : Nibble) (param : Nat) (val : Int) (port : Nat),
    (s.cfg.nPorts = 1 ∨ (1 ≤ port ∧ port ≤ s.cfg.nPorts)) → s.cfg.extCc = true →
    (param ≤ 31 → exec (.encCc14 chan param val port) s = .next (sent s port
      [0xB#4 ++ chan, BitVec.ofNat 8 param, BitVec.ofInt 8 (val % 16384 / 128),
       BitVec.ofNat 8 (param + 32), BitVec.ofInt 8 (val % 16384 % 128)]
      (0xB#4 ++ chan)))
    ∧ (31 < param → exec (.encCc14 chan param val port) s = .next (rejected s))

/-- NRPN and RPN with `EXT_CC` (R184, R186, R187): the status byte is always sent, then the parameter and
the value, each modulo 16384 and most significant 7 bits first. -/
def Obligations.ParameterNumberCommandOutput : Prop :=
  ∀ (s : State) (chan : Nibble) (param : Nat) (val : Int) (port : Nat),
    (s.cfg.nPorts = 1 ∨ (1 ≤ port ∧ port ≤ s.cfg.nPorts)) → s.cfg.extCc = true →
    ∀ p ∈ [((0x63#8 : Byte), (0x62#8 : Byte), Instr.encNrpn), (0x65#8, 0x64#8, Instr.encRpn)],
    exec (p.2.2 chan param val port) s = .next (sent s port
      [0xB#4 ++ chan,
       p.1, BitVec.ofNat 8 (param % 16384 / 128), p.2.1, BitVec.ofNat 8 (param % 16384 % 128),
       0x06#8, BitVec.ofInt 8 (val % 16384 / 128), 0x26#8, BitVec.ofInt 8 (val % 16384 % 128)]
      (0xB#4 ++ chan))

/-! ### Control events and reset -/

/-- DEC's `RESET` (R220). -/
def Obligations.DecoderResetEvent : Prop :=
  ∀ s : State, ∃ t, exec .ctlDecReset s = .next t
    ∧ (∀ a, Memory.read t.dec.buf a = 0x00#8)
    ∧ t.dec = { rs := 0x00#8, buf := t.dec.buf, pos := 0, exp := 0, inPort := 1, dstat := 0x00#8 }
    ∧ t = { s with dec := t.dec }

/-- ENC's `RESET` (R224). -/
def Obligations.EncoderResetEvent : Prop :=
  ∀ s : State, exec .ctlEncReset s =
    .next { s with enc := { rsOut := 0x00#8, lastIdx := -1, estat := 0x00#8 } }

/-- DEC's `RX_ERROR`, `IN_ROUTE_RESET` and `DSTAT_CLEAR` (R221 to R223). -/
def Obligations.DecoderErrorAndClearEvents : Prop :=
  ∀ s : State,
    exec .ctlDecRxError s = .next { s with dec := { s.dec with rs := 0x00#8, pos := 0 } }
    ∧ exec .ctlDecInRouteReset s = .next { s with dec := { s.dec with inPort := 1 } }
    ∧ exec .ctlDecDstatClear s = .next { s with dec := { s.dec with dstat := 0x00#8 } }

/-- ENC's `WRITE_ERROR`, `IDLE_EXPIRED`, `SUBS_EDGE` and `ESTAT_CLEAR` (R225 to R228). -/
def Obligations.EncoderErrorAndClearEvents : Prop :=
  ∀ s : State,
    exec .ctlEncWriteError s =
      .next { s with enc := { s.enc with rsOut := 0x00#8, lastIdx := -1 } }
    ∧ exec .ctlEncIdleExpired s = .next { s with enc := { s.enc with lastIdx := -1 } }
    ∧ exec .ctlEncSubsEdge s = .next { s with enc := { s.enc with lastIdx := -1 } }
    ∧ exec .ctlEncEstatClear s = .next { s with enc := { s.enc with estat := 0x00#8 } }

/-- `STATUS_READ` of either agent (R229) returns the status register and changes no state. That the
returned value joins a list is the model's form (notes/assumptions/4.md). -/
def Obligations.StatusReadReturnsRegister : Prop :=
  ∀ s : State,
    exec .ctlDecStatusRead s = .next { s with decReads := s.decReads ++ [s.dec.dstat] }
    ∧ exec .ctlEncStatusRead s = .next { s with encReads := s.encReads ++ [s.enc.estat] }

/-- R260, field by field, in every configuration; each agent's `RESET` event leaves it in that state. -/
def Obligations.ResetValues : Prop :=
  ∀ c : Config,
    (State.resetWith c).dec.rs = 0x00#8
    ∧ (∀ a, Memory.read (State.resetWith c).dec.buf a = 0x00#8)
    ∧ (State.resetWith c).dec.pos = 0 ∧ (State.resetWith c).dec.exp = 0
    ∧ (State.resetWith c).dec.inPort = 1 ∧ (State.resetWith c).dec.dstat = 0x00#8
    ∧ (State.resetWith c).enc.rsOut = 0x00#8 ∧ (State.resetWith c).enc.lastIdx = -1
    ∧ (State.resetWith c).enc.estat = 0x00#8
    ∧ (∀ s, exec .ctlDecReset s = .next { s with dec := (State.resetWith c).dec })
    ∧ (∀ s, exec .ctlEncReset s = .next { s with enc := (State.resetWith c).enc })

/-! ### Invariants and whole-machine rules -/

/-- The reset state meets the invariant in every configuration, that of `State.reset` among them. -/
def Obligations.ResetMeetsInvariant : Prop :=
  State.reset.Inv ∧ ∀ c : Config, (State.resetWith c).Inv

/-- Every step keeps the invariant: the six items of R36 (which the spec marks as derived), the legal
values of `rs`, `rs_out` and `last_idx` (R22, R29, R31), the reserved status bits (R28, R32), the data
bytes of an open frame and the buffer's canonical form. -/
def Obligations.StepKeepsInvariant : Prop :=
  ∀ s t : State, s.Inv → step s = .next t → t.Inv

/-- From a state that meets the invariant a step completes, whatever its input is, a control code that
R84 does not give apart (R85, R240). -/
def Obligations.EveryInputCompletes : Prop :=
  ∀ s : State, s.Inv →
    (∃ t, step s = .next t)
    ∨ ∃ code rest, (s.inputs = .decControl code :: rest ∧ 5 ≤ code.toNat)
        ∨ (s.inputs = .encControl code :: rest ∧ 6 ≤ code.toNat)

/-- The "zero-or-one" contract (R132, which the spec marks as derived): a step emits at most one record,
and none for an instruction of ENC or a control event. -/
def Obligations.StepEmitsAtMostOneEvent : Prop :=
  ∀ (i : Instr) (s t : State), exec i s = .next t →
    (t.events = s.events ∨ ∃ e, t.events = s.events ++ [e])
    ∧ (t.events ≠ s.events → ∃ b, encode i = .wire b)

/-- R133 (which the spec marks as derived): every record a step emits is within range. -/
def Obligations.EmittedRecordsAreLegal : Prop :=
  ∀ s t : State, s.Inv → step s = .next t →
    ∃ new, t.events = s.events ++ new ∧ ∀ e ∈ new, e.Legal s.cfg

/-- R243 (which the spec marks as derived): a wire byte sets at most one status bit, `SX_ABORT` only at a
status byte, `SX_TRUNC` and `PORT_RANGE` only at a data byte. -/
def Obligations.WireByteSetsAtMostOneStatusBit : Prop :=
  ∀ (s t : State) (b : Byte), exec (decodeWire b) s = .next t →
    (0x80 ≤ b.toNat → t.dec.dstat = s.dec.dstat ∨ t.dec.dstat = s.dec.dstat ||| 0x02#8)
    ∧ (b.toNat < 0x80 → t.dec.dstat = s.dec.dstat ∨ t.dec.dstat = s.dec.dstat ||| 0x01#8
        ∨ t.dec.dstat = s.dec.dstat ||| 0x04#8)

/-- A sticky bit stays 1 until its clear event or its agent's reset (R28, R32). -/
def Obligations.StatusBitsAreSticky : Prop :=
  ∀ (i : Instr) (s t : State), exec i s = .next t →
    (i ≠ .ctlDecDstatClear → i ≠ .ctlDecReset → s.dec.dstat &&& t.dec.dstat = s.dec.dstat)
    ∧ (i ≠ .ctlEncEstatClear → i ≠ .ctlEncReset → s.enc.estat &&& t.enc.estat = s.enc.estat)

/-- R205: `in_port` changes only by a completed port-select frame, whose record carries the new port, by
`IN_ROUTE_RESET` and by reset. -/
def Obligations.InboundPortChangesOnlyBySelection : Prop :=
  ∀ (i : Instr) (s t : State), exec i s = .next t → t.dec.inPort ≠ s.dec.inPort →
    i = .ctlDecReset ∨ i = .ctlDecInRouteReset
    ∨ ∃ v e, i = .decData v ∧ Memory.read s.dec.buf 0 = 0xF5#8
        ∧ t.events = s.events ++ [e] ∧ e.cls = .ps ∧ e.port = t.dec.inPort

/-- R210 (which the spec marks as derived): `last_idx` becomes -1 by four control events only. -/
def Obligations.RouteIsForgottenOnlyByFourEvents : Prop :=
  ∀ (i : Instr) (s t : State), exec i s = .next t → s.enc.lastIdx ≠ -1 → t.enc.lastIdx = -1 →
    i ∈ [Instr.ctlEncWriteError, .ctlEncIdleExpired, .ctlEncSubsEdge, .ctlEncReset]

/-- R22's invariant clause: real-time bytes (and data bytes) never alter the decoder's running status, a
channel-voice status byte becomes it, and any system-common, SysEx or port-select byte clears it. -/
def Obligations.DecoderRunningStatusFollowsStatusBytes : Prop :=
  ∀ (s t : State) (b : Byte), exec (decodeWire b) s = .next t →
    (isRealTime b → t.dec.rs = s.dec.rs)
    ∧ (isData b → t.dec.rs = s.dec.rs)
    ∧ (isChannelVoice b → t.dec.rs = b)
    ∧ (0xF0 ≤ b.toNat → b.toNat ≤ 0xF7 → t.dec.rs = 0x00#8)

/-! ### The two agents, and the encoder against the decoder -/

/-- R20: an instruction of one agent writes nothing of the other. -/
def Obligations.AgentsWriteOnlyTheirOwnState : Prop :=
  ∀ (i : Instr) (s t : State), exec i s = .next t →
    (i.agent = .dec → t.enc = s.enc ∧ t.wireOut = s.wireOut ∧ t.encReads = s.encReads)
    ∧ (i.agent = .enc → t.dec = s.dec ∧ t.events = s.events ∧ t.decReads = s.decReads)

/-- The inference that R20 marks as derived: steps of the two agents commute, so no interleaving changes
what either computes. -/
def Obligations.StepsOfTheTwoAgentsCommute : Prop :=
  ∀ (i j : Instr) (s t u : State), i.agent ≠ j.agent →
    exec i s = .next t → exec j t = .next u →
    ∃ t', exec j s = .next t' ∧ exec i t' = .next u

/-- Buffer elements at index `pos` and above and `exp` while `pos = 0` are never read (R23, R25): two
states that differ in those alone give the same outputs and stay so. -/
def Obligations.UnreadBufferIsUnobservable : Prop :=
  ∀ (i : Instr) (s t s' : State), s.Inv → t = { s with dec := t.dec } → s.dec.alike t.dec →
    exec i s = .next s' →
    ∃ t', exec i t = .next t' ∧ t' = { s' with dec := t'.dec } ∧ s'.dec.alike t'.dec

/-- R146 (which the spec marks as derived): a SysEx frame of at most `SYSEX_CAP` bytes comes out once, at
its `F7`, with exactly its own bytes, whatever real-time bytes are interleaved; each of these comes out
at its place. -/
def Obligations.SysexFrameRoundTrips : Prop :=
  ∀ (s : State) (body : List Byte), (∀ b ∈ body, isData b ∨ isRealTime b) →
    (body.filter (fun b => decide (isData b))).length + 2 ≤ s.cfg.sysexCap →
    ∃ t, feed ([0xF0#8] ++ body ++ [0xF7#8]) s = .next t
      ∧ t.dec.rs = 0x00#8 ∧ t.dec.pos = 0 ∧ t.dec.inPort = s.dec.inPort
      ∧ t.events = s.events
          ++ (body.filter (fun b => decide (isRealTime b))).map (fun b => rtEvent b s.dec.inPort)
          ++ [sxEvent ([0xF0#8] ++ body.filter (fun b => decide (isData b)) ++ [0xF7#8]) true
                s.dec.inPort]

/-- R190 (which the spec marks as derived): every channel-voice command with data in range comes back from
a decoder at a frame boundary whose running status is the encoder's. -/
def Obligations.ChannelVoiceCommandRoundTrips : Prop :=
  ∀ (s d : State) (chan : Nibble) (d1 d2 : Data7) (val : Int) (port : Nat),
    (s.cfg.nPorts = 1 ∨ (1 ≤ port ∧ port ≤ s.cfg.nPorts)) →
    d.cfg = s.cfg → d.Inv → d.dec.rs = s.enc.rsOut →
    (d.dec.pos = 0 ∨ (d.dec.pos = 1 ∧ d.dec.rs ≠ 0x00#8)) →
    -8192 ≤ val → val ≤ 8191 →
    (∀ p ∈ [((0x8#4 : Nibble), Instr.encNoteOff), (0x9#4, Instr.encNoteOn),
        (0xA#4, Instr.encPolyPress), (0xB#4, Instr.encControl)],
      bringsBack s d (p.2 chan (d1.setWidth 8) (d2.setWidth 8) port) port fun e =>
        e.kind = p.1 ∧ e.chan = chan ∧ e.d1 = d1 ∧ e.hasD2 = true ∧ e.d2 = d2)
    ∧ (∀ p ∈ [((0xC#4 : Nibble), Instr.encProgram), (0xD#4, Instr.encChanPress)],
      bringsBack s d (p.2 chan (d1.setWidth 8) port) port fun e =>
        e.kind = p.1 ∧ e.chan = chan ∧ e.d1 = d1 ∧ e.hasD2 = false)
    ∧ bringsBack s d (.encPitchBend chan val port) port fun e =>
        e.kind = 0xE#4 ∧ e.chan = chan ∧ e.hasD2 = true ∧ e.val = val

/-- R191 (which the spec marks as derived): a decoder that receives every byte an accepted command puts
out keeps the encoder's running status and stands at a frame boundary whenever there is one. It holds
for any SysEx payload, well formed or not, since such a command leaves `rs_out` 0. -/
def Obligations.RunningStatusAgreementIsKept : Prop :=
  ∀ (s d t : State) (c : Command) (rest : List Input),
    d.cfg = s.cfg → d.Inv → runningStatusAgrees s.enc d.dec →
    s.inputs = .command c :: rest → c.accept s.cfg = true → step s = .next t →
    ∃ bytes u, t.wireOut = s.wireOut ++ bytes ∧ feed bytes d = .next u
      ∧ u.cfg = d.cfg ∧ u.Inv ∧ runningStatusAgrees t.enc u.dec

/-! ### Event selectors -/

/-- R80: the selector of an emitted record is `cls * 16 + kind`, with the class codes CV = 0, SC = 1,
RT = 2, SX = 3 and PS = 5. By the record's status byte it is the high nibble of a channel-voice status,
`0x10` or `0x20` plus the low nibble of a system-common or real-time status, `0x30` for `F0` and `0x55`
for `F5`. -/
def Obligations.EmittedSelectorsFollowStatus : Prop :=
  ∀ (i : Instr) (s t : State), s.Inv → exec i s = .next t →
    ∃ new, t.events = s.events ++ new ∧ ∀ e ∈ new,
      e.sel.toNat = (match e.cls with
        | .cv => 0 | .sc => 1 | .rt => 2 | .sx => 3 | .ps => 5) * 16 + e.kind.toNat
      ∧ 0x80 ≤ e.status.toNat
      ∧ e.sel.toNat =
        (if e.status.toNat < 0xF0 then e.status.toNat / 16
         else if e.status = 0xF0#8 then 0x30
         else if e.status = 0xF5#8 then 0x55
         else if e.status.toNat < 0xF8 then 0x10 + e.status.toNat % 16
         else 0x20 + e.status.toNat % 16)
end

