-- ==== Sys2Proof/Laws/State.lean ====
section
/-! SUPPORT. What each named update leaves in each field, one lemma per field per update. -/

namespace Sys2Proof.Machine

/-! ### `State.setDec` -/

@[simp] theorem State.setDec_cfg (s : State) (d : DecState) : (s.setDec d).cfg = s.cfg := rfl
@[simp] theorem State.setDec_dec (s : State) (d : DecState) : (s.setDec d).dec = d := rfl
@[simp] theorem State.setDec_enc (s : State) (d : DecState) : (s.setDec d).enc = s.enc := rfl
@[simp] theorem State.setDec_inputs (s : State) (d : DecState) : (s.setDec d).inputs = s.inputs := rfl
@[simp] theorem State.setDec_events (s : State) (d : DecState) : (s.setDec d).events = s.events := rfl
@[simp] theorem State.setDec_decReads (s : State) (d : DecState) : (s.setDec d).decReads = s.decReads := rfl
@[simp] theorem State.setDec_wireOut (s : State) (d : DecState) : (s.setDec d).wireOut = s.wireOut := rfl
@[simp] theorem State.setDec_encReads (s : State) (d : DecState) : (s.setDec d).encReads = s.encReads := rfl

/-! ### `State.setEnc` -/

@[simp] theorem State.setEnc_cfg (s : State) (e : EncState) : (s.setEnc e).cfg = s.cfg := rfl
@[simp] theorem State.setEnc_dec (s : State) (e : EncState) : (s.setEnc e).dec = s.dec := rfl
@[simp] theorem State.setEnc_enc (s : State) (e : EncState) : (s.setEnc e).enc = e := rfl
@[simp] theorem State.setEnc_inputs (s : State) (e : EncState) : (s.setEnc e).inputs = s.inputs := rfl
@[simp] theorem State.setEnc_events (s : State) (e : EncState) : (s.setEnc e).events = s.events := rfl
@[simp] theorem State.setEnc_decReads (s : State) (e : EncState) : (s.setEnc e).decReads = s.decReads := rfl
@[simp] theorem State.setEnc_wireOut (s : State) (e : EncState) : (s.setEnc e).wireOut = s.wireOut := rfl
@[simp] theorem State.setEnc_encReads (s : State) (e : EncState) : (s.setEnc e).encReads = s.encReads := rfl

/-! ### `State.emit` -/

@[simp] theorem State.emit_cfg (s : State) (e : Event) : (s.emit e).cfg = s.cfg := rfl
@[simp] theorem State.emit_dec (s : State) (e : Event) : (s.emit e).dec = s.dec := rfl
@[simp] theorem State.emit_enc (s : State) (e : Event) : (s.emit e).enc = s.enc := rfl
@[simp] theorem State.emit_inputs (s : State) (e : Event) : (s.emit e).inputs = s.inputs := rfl
@[simp] theorem State.emit_events (s : State) (e : Event) : (s.emit e).events = s.events ++ [e] := rfl
@[simp] theorem State.emit_decReads (s : State) (e : Event) : (s.emit e).decReads = s.decReads := rfl
@[simp] theorem State.emit_wireOut (s : State) (e : Event) : (s.emit e).wireOut = s.wireOut := rfl
@[simp] theorem State.emit_encReads (s : State) (e : Event) : (s.emit e).encReads = s.encReads := rfl

/-! ### `State.send` -/

@[simp] theorem State.send_cfg (s : State) (bytes : List Byte) : (s.send bytes).cfg = s.cfg := rfl
@[simp] theorem State.send_dec (s : State) (bytes : List Byte) : (s.send bytes).dec = s.dec := rfl
@[simp] theorem State.send_enc (s : State) (bytes : List Byte) : (s.send bytes).enc = s.enc := rfl
@[simp] theorem State.send_inputs (s : State) (bytes : List Byte) : (s.send bytes).inputs = s.inputs := rfl
@[simp] theorem State.send_events (s : State) (bytes : List Byte) : (s.send bytes).events = s.events := rfl
@[simp] theorem State.send_decReads (s : State) (bytes : List Byte) : (s.send bytes).decReads = s.decReads := rfl
@[simp] theorem State.send_wireOut (s : State) (bytes : List Byte) : (s.send bytes).wireOut = s.wireOut ++ bytes := rfl
@[simp] theorem State.send_encReads (s : State) (bytes : List Byte) : (s.send bytes).encReads = s.encReads := rfl

/-! ### `State.returnDec` -/

@[simp] theorem State.returnDec_cfg (s : State) (v : Byte) : (s.returnDec v).cfg = s.cfg := rfl
@[simp] theorem State.returnDec_dec (s : State) (v : Byte) : (s.returnDec v).dec = s.dec := rfl
@[simp] theorem State.returnDec_enc (s : State) (v : Byte) : (s.returnDec v).enc = s.enc := rfl
@[simp] theorem State.returnDec_inputs (s : State) (v : Byte) : (s.returnDec v).inputs = s.inputs := rfl
@[simp] theorem State.returnDec_events (s : State) (v : Byte) : (s.returnDec v).events = s.events := rfl
@[simp] theorem State.returnDec_decReads (s : State) (v : Byte) : (s.returnDec v).decReads = s.decReads ++ [v] := rfl
@[simp] theorem State.returnDec_wireOut (s : State) (v : Byte) : (s.returnDec v).wireOut = s.wireOut := rfl
@[simp] theorem State.returnDec_encReads (s : State) (v : Byte) : (s.returnDec v).encReads = s.encReads := rfl

/-! ### `State.returnEnc` -/

@[simp] theorem State.returnEnc_cfg (s : State) (v : Byte) : (s.returnEnc v).cfg = s.cfg := rfl
@[simp] theorem State.returnEnc_dec (s : State) (v : Byte) : (s.returnEnc v).dec = s.dec := rfl
@[simp] theorem State.returnEnc_enc (s : State) (v : Byte) : (s.returnEnc v).enc = s.enc := rfl
@[simp] theorem State.returnEnc_inputs (s : State) (v : Byte) : (s.returnEnc v).inputs = s.inputs := rfl
@[simp] theorem State.returnEnc_events (s : State) (v : Byte) : (s.returnEnc v).events = s.events := rfl
@[simp] theorem State.returnEnc_decReads (s : State) (v : Byte) : (s.returnEnc v).decReads = s.decReads := rfl
@[simp] theorem State.returnEnc_wireOut (s : State) (v : Byte) : (s.returnEnc v).wireOut = s.wireOut := rfl
@[simp] theorem State.returnEnc_encReads (s : State) (v : Byte) : (s.returnEnc v).encReads = s.encReads ++ [v] := rfl

/-! ### `DecState.openFrame` -/

@[simp] theorem DecState.openFrame_rs (rs status : Byte) (length : Nat) (d : DecState) :
    (d.openFrame rs status length).rs = rs := rfl
@[simp] theorem DecState.openFrame_buf (rs status : Byte) (length : Nat) (d : DecState) :
    (d.openFrame rs status length).buf = Memory.write d.buf 0 status := rfl
@[simp] theorem DecState.openFrame_pos (rs status : Byte) (length : Nat) (d : DecState) :
    (d.openFrame rs status length).pos = 1 := rfl
@[simp] theorem DecState.openFrame_exp (rs status : Byte) (length : Nat) (d : DecState) :
    (d.openFrame rs status length).exp = length := rfl
@[simp] theorem DecState.openFrame_inPort (rs status : Byte) (length : Nat) (d : DecState) :
    (d.openFrame rs status length).inPort = d.inPort := rfl
@[simp] theorem DecState.openFrame_dstat (rs status : Byte) (length : Nat) (d : DecState) :
    (d.openFrame rs status length).dstat = d.dstat := rfl

/-! ### `DecState.closeFrame` -/

@[simp] theorem DecState.closeFrame_rs (d : DecState) :
    (d.closeFrame).rs = 0x00#8 := rfl
@[simp] theorem DecState.closeFrame_buf (d : DecState) :
    (d.closeFrame).buf = d.buf := rfl
@[simp] theorem DecState.closeFrame_pos (d : DecState) :
    (d.closeFrame).pos = 0 := rfl
@[simp] theorem DecState.closeFrame_exp (d : DecState) :
    (d.closeFrame).exp = d.exp := rfl
@[simp] theorem DecState.closeFrame_inPort (d : DecState) :
    (d.closeFrame).inPort = d.inPort := rfl
@[simp] theorem DecState.closeFrame_dstat (d : DecState) :
    (d.closeFrame).dstat = d.dstat := rfl

/-! ### `DecState.flag` -/

@[simp] theorem DecState.flag_rs (mask : Byte) (d : DecState) :
    (d.flag mask).rs = d.rs := rfl
@[simp] theorem DecState.flag_buf (mask : Byte) (d : DecState) :
    (d.flag mask).buf = d.buf := rfl
@[simp] theorem DecState.flag_pos (mask : Byte) (d : DecState) :
    (d.flag mask).pos = d.pos := rfl
@[simp] theorem DecState.flag_exp (mask : Byte) (d : DecState) :
    (d.flag mask).exp = d.exp := rfl
@[simp] theorem DecState.flag_inPort (mask : Byte) (d : DecState) :
    (d.flag mask).inPort = d.inPort := rfl
@[simp] theorem DecState.flag_dstat (mask : Byte) (d : DecState) :
    (d.flag mask).dstat = d.dstat ||| mask := rfl

/-! ### `DecState.clearStatus` -/

@[simp] theorem DecState.clearStatus_rs (d : DecState) :
    (d.clearStatus).rs = d.rs := rfl
@[simp] theorem DecState.clearStatus_buf (d : DecState) :
    (d.clearStatus).buf = d.buf := rfl
@[simp] theorem DecState.clearStatus_pos (d : DecState) :
    (d.clearStatus).pos = d.pos := rfl
@[simp] theorem DecState.clearStatus_exp (d : DecState) :
    (d.clearStatus).exp = d.exp := rfl
@[simp] theorem DecState.clearStatus_inPort (d : DecState) :
    (d.clearStatus).inPort = d.inPort := rfl
@[simp] theorem DecState.clearStatus_dstat (d : DecState) :
    (d.clearStatus).dstat = 0x00#8 := rfl

/-! ### `EncState.flag` -/

@[simp] theorem EncState.flag_rsOut (mask : Byte) (e : EncState) :
    (e.flag mask).rsOut = e.rsOut := rfl
@[simp] theorem EncState.flag_lastIdx (mask : Byte) (e : EncState) :
    (e.flag mask).lastIdx = e.lastIdx := rfl
@[simp] theorem EncState.flag_estat (mask : Byte) (e : EncState) :
    (e.flag mask).estat = e.estat ||| mask := rfl

/-! ### `EncState.clearStatus` -/

@[simp] theorem EncState.clearStatus_rsOut (e : EncState) :
    (e.clearStatus).rsOut = e.rsOut := rfl
@[simp] theorem EncState.clearStatus_lastIdx (e : EncState) :
    (e.clearStatus).lastIdx = e.lastIdx := rfl
@[simp] theorem EncState.clearStatus_estat (e : EncState) :
    (e.clearStatus).estat = 0x00#8 := rfl

end Sys2Proof.Machine
end

