-- ==== Sys2Proof/Laws/Memory.lean ====
section
/-! SUPPORT. The laws of the buffer: a read after a write, reads elsewhere, the canonical form, and frames. -/

namespace Sys2Proof.Machine

@[simp] theorem Memory.read_nil (i : Nat) : Memory.read [] i = 0x00#8 := rfl

theorem Memory.read_cons (j : Nat) (b : Byte) (m : Memory) (i : Nat) :
    Memory.read ((j, b) :: m) i = if j = i then b else Memory.read m i := rfl

/-- An index with no cell reads as `0x00`. -/
theorem Memory.read_of_not_mem {m : Memory} {i : Nat} (h : ∀ c ∈ m, c.1 ≠ i) :
    Memory.read m i = 0x00#8 := by
  induction m with
  | nil => rfl
  | cons c m ih =>
    obtain ⟨j, b⟩ := c
    rw [Memory.read_cons, if_neg (h (j, b) (by simp))]
    exact ih fun c hc => h c (by simp [hc])

theorem Memory.read_filter_ne {m : Memory} {i k : Nat} (h : k ≠ i) :
    Memory.read (m.filter (fun c => c.1 ≠ i)) k = Memory.read m k := by
  induction m with
  | nil => rfl
  | cons c m ih =>
    obtain ⟨j, b⟩ := c
    by_cases hj : j = i
    · subst hj
      rw [List.filter_cons_of_neg (by simp), ih, Memory.read_cons, if_neg (Ne.symm h)]
    · rw [List.filter_cons_of_pos (by simpa using hj), Memory.read_cons, Memory.read_cons, ih]

theorem Memory.read_insert_same {m : Memory} {i : Nat} (b : Byte) (h : ∀ c ∈ m, c.1 ≠ i) :
    Memory.read (Memory.insert m i b) i = b := by
  induction m with
  | nil => simp [Memory.insert, Memory.read_cons]
  | cons c m ih =>
    obtain ⟨j, d⟩ := c
    unfold Memory.insert
    split
    · rw [Memory.read_cons, if_pos rfl]
    · rw [Memory.read_cons, if_neg (h (j, d) (by simp))]
      exact ih fun c hc => h c (by simp [hc])

theorem Memory.read_insert_ne {m : Memory} {i k : Nat} (b : Byte) (h : k ≠ i) :
    Memory.read (Memory.insert m i b) k = Memory.read m k := by
  induction m with
  | nil => simp [Memory.insert, Memory.read_cons, Ne.symm h]
  | cons c m ih =>
    obtain ⟨j, d⟩ := c
    unfold Memory.insert
    split
    · rw [Memory.read_cons, if_neg (Ne.symm h)]
    · rw [Memory.read_cons, Memory.read_cons, ih]

/-- A read of the element just written gives what was written. -/
@[simp] theorem Memory.read_write_same (m : Memory) (i : Nat) (b : Byte) :
    Memory.read (Memory.write m i b) i = b := by
  have hf : ∀ c ∈ m.filter (fun c => c.1 ≠ i), c.1 ≠ i := fun c hc => by
    simpa using (List.mem_filter.1 hc).2
  unfold Memory.write
  split
  · next hb => rw [Memory.read_of_not_mem hf, hb]
  · exact Memory.read_insert_same b hf

/-- A write leaves every other element alone. -/
theorem Memory.read_write_ne (m : Memory) {i k : Nat} (b : Byte) (h : k ≠ i) :
    Memory.read (Memory.write m i b) k = Memory.read m k := by
  unfold Memory.write
  split
  · exact Memory.read_filter_ne h
  · exact (Memory.read_insert_ne b h).trans (Memory.read_filter_ne h)

theorem Memory.mem_insert {m : Memory} {i : Nat} {b : Byte} {c : Host.Cell} :
    c ∈ Memory.insert m i b ↔ c = (i, b) ∨ c ∈ m := by
  induction m with
  | nil => simp [Memory.insert]
  | cons d m ih =>
    obtain ⟨j, e⟩ := d
    unfold Memory.insert
    split
    · simp
    · simp only [List.mem_cons, ih]; tauto

/-- A write lists no new cell but the written one. -/
theorem Memory.mem_write {m : Memory} {i : Nat} {b : Byte} {c : Host.Cell}
    (h : c ∈ Memory.write m i b) : c = (i, b) ∨ c ∈ m := by
  unfold Memory.write at h
  split at h
  · exact .inr (List.mem_filter.1 h).1
  · exact (Memory.mem_insert.1 h).imp_right fun h => (List.mem_filter.1 h).1

theorem Memory.pairwise_insert {m : Memory} {i : Nat} (b : Byte) (hne : ∀ c ∈ m, c.1 ≠ i)
    (h : m.Pairwise (fun x y => x.1 < y.1)) :
    (Memory.insert m i b).Pairwise (fun x y => x.1 < y.1) := by
  induction m with
  | nil => simp [Memory.insert]
  | cons c m ih =>
    obtain ⟨j, e⟩ := c
    obtain ⟨hj, hm⟩ := List.pairwise_cons.1 h
    unfold Memory.insert
    split
    · next hij =>
      refine List.pairwise_cons.2 ⟨fun c hc => ?_, h⟩
      rcases List.mem_cons.1 hc with rfl | hc
      · exact hij
      · exact hij.trans (hj c hc)
    · next hij =>
      have hlt : j < i := Nat.lt_of_le_of_ne (Nat.le_of_not_lt hij) (hne (j, e) (by simp))
      refine List.pairwise_cons.2 ⟨fun c hc => ?_, ih (fun c hc => hne c (by simp [hc])) hm⟩
      rcases Memory.mem_insert.1 hc with rfl | hc
      · exact hlt
      · exact hj c hc

/-- A write keeps the canonical form. -/
theorem Memory.wf_write {m : Memory} (i : Nat) (b : Byte) (h : Memory.wf m) :
    Memory.wf (Memory.write m i b) := by
  have hp := h.1.filter (fun c => c.1 ≠ i)
  refine ⟨?_, fun c hc => ?_⟩
  · unfold Memory.write
    split
    · exact hp
    · exact Memory.pairwise_insert b (fun c hc => by simpa using (List.mem_filter.1 hc).2) hp
  · unfold Memory.write at hc
    split at hc
    · exact h.2 c (List.mem_filter.1 hc).1
    · next hb =>
      rcases Memory.mem_insert.1 hc with rfl | hc
      · exact hb
      · exact h.2 c (List.mem_filter.1 hc).1

/-- The empty buffer, in which every element reads as `0x00`, has the canonical form. -/
theorem Memory.wf_nil : Memory.wf [] := by simp [Memory.wf]

/-- The reset state's buffer has the canonical form. -/
theorem State.resetWith_buf_wf (c : Config) : Memory.wf (State.resetWith c).dec.buf := Memory.wf_nil

/-! ### Frames -/

@[simp] theorem Memory.readFrame_length (m : Memory) (n : Nat) : (Memory.readFrame m n).length = n := by
  simp [Memory.readFrame]

theorem Memory.readFrame_succ (m : Memory) (n : Nat) :
    Memory.readFrame m (n + 1) = Memory.readFrame m n ++ [Memory.read m n] := by
  simp [Memory.readFrame, List.range_succ]

theorem Memory.readFrame_congr {m m' : Memory} {n : Nat}
    (h : ∀ a < n, Memory.read m a = Memory.read m' a) : Memory.readFrame m n = Memory.readFrame m' n :=
  List.map_congr_left fun a ha => h a (List.mem_range.1 ha)

/-- The frame of a buffer to which a byte has just been appended. -/
theorem Memory.readFrame_write_succ (m : Memory) (n : Nat) (b : Byte) :
    Memory.readFrame (Memory.write m n b) (n + 1) = Memory.readFrame m n ++ [b] := by
  rw [Memory.readFrame_succ, Memory.read_write_same,
    Memory.readFrame_congr fun a ha => Memory.read_write_ne m b (Nat.ne_of_lt ha)]

end Sys2Proof.Machine
end

