-- ==== Sys2Proof/Laws/Ops.lean ====
section
/-! SUPPORT. One lemma per shared operation that says once everything it can do. -/

namespace Sys2Proof.Machine

/-! ### Configuration and frames -/

theorem Config.three_le_sysexCap (c : Config) : 3 ≤ c.sysexCap := by simp [Config.sysexCap]

theorem Config.one_le_nPorts (c : Config) : 1 ≤ c.nPorts := by simp [Config.nPorts]

theorem Config.nPorts_le (c : Config) : c.nPorts ≤ 16 := by
  have := c.extraPorts.isLt
  simp only [Config.nPorts]; omega

theorem DecState.sxOpen_iff (d : DecState) :
    d.sxOpen = true ↔ 1 ≤ d.pos ∧ Memory.read d.buf 0 = 0xF0#8 := by
  simp [DecState.sxOpen]

theorem DecState.append_eq_some {cap : Nat} {b : Byte} {d d' : DecState} :
    d.append cap b = some d' ↔
      d.pos < cap ∧ d' = { d with buf := Memory.write d.buf d.pos b, pos := d.pos + 1 } := by
  unfold DecState.append
  split <;> simp_all [eq_comm]

theorem DecState.append_eq_none {cap : Nat} {b : Byte} {d : DecState} :
    d.append cap b = none ↔ cap ≤ d.pos := by
  unfold DecState.append
  split <;> simp_all

/-! ### Event records -/

/-- `cls * 16 + kind` (R80, R82). -/
theorem sel_append_toNat (c : BitVec 3) (k : Nibble) : (c ++ k).toNat = c.toNat * 16 + k.toNat := by
  revert c k; decide

theorem Event.sel_toNat (e : Event) : e.sel.toNat = e.cls.code.toNat * 16 + e.kind.toNat :=
  sel_append_toNat _ _

/-- A record and a command with one selector agree in class and kind: one numbering (R80, R82). -/
theorem Event.sel_eq_command {e : Event} {c : Command} :
    e.sel = c.sel ↔ e.cls.code = c.cls ∧ e.kind = c.kind := by
  have h : c.sel.toNat = c.cls.toNat * 16 + c.kind.toNat := sel_append_toNat _ _
  rw [← BitVec.toNat_inj, ← BitVec.toNat_inj, ← BitVec.toNat_inj, Event.sel_toNat, h]
  omega

@[simp] theorem cvEvent_sel (frame : List Byte) (port : Nat) :
    (cvEvent frame port).sel = 0#3 ++ highNibble (frame.getD 0 0#8) := rfl
@[simp] theorem scEvent_sel (frame : List Byte) (port : Nat) :
    (scEvent frame port).sel = 1#3 ++ lowNibble (frame.getD 0 0#8) := rfl
@[simp] theorem rtEvent_sel (b : Byte) (port : Nat) :
    (rtEvent b port).sel = 2#3 ++ lowNibble b := rfl
@[simp] theorem sxEvent_sel (frame : List Byte) (eox : Bool) (port : Nat) :
    (sxEvent frame eox port).sel = 0x30#7 := by
  show 3#3 ++ 0#4 = 0x30#7; decide
@[simp] theorem psEvent_sel (pp : Byte) (port : Nat) : (psEvent pp port).sel = 0x55#7 := by
  show 5#3 ++ 5#4 = 0x55#7; decide

/-! ### DEC: status bytes -/

/-- `SysexAbort` changes `DSTAT` alone. -/
theorem sysexAbort_spec (s : State) :
    sysexAbort s = { s with dec := { s.dec with
      dstat := if s.dec.sxOpen then s.dec.dstat ||| 0x02#8 else s.dec.dstat } } := by
  unfold sysexAbort
  split <;> simp_all [State.setDec, DecState.flag, sxAbortBit]

theorem cvStatus_spec (kind chan : Nibble) (s : State) :
    cvStatus kind chan s = { s with dec :=
      { rs := byteOf kind chan, buf := Memory.write s.dec.buf 0 (byteOf kind chan), pos := 1
        exp := cvLength kind, inPort := s.dec.inPort
        dstat := if s.dec.sxOpen then s.dec.dstat ||| 0x02#8 else s.dec.dstat } } := by
  simp [cvStatus, sysexAbort_spec, State.setDec, DecState.openFrame]

theorem sysexStart_spec (s : State) :
    sysexStart s = { s with dec :=
      { rs := 0x00#8, buf := Memory.write s.dec.buf 0 0xF0#8, pos := 1, exp := s.cfg.sysexCap
        inPort := s.dec.inPort
        dstat := if s.dec.sxOpen then s.dec.dstat ||| 0x02#8 else s.dec.dstat } } := by
  simp [sysexStart, sysexAbort_spec, State.setDec, DecState.openFrame]

theorem scStatus_spec {b : Byte} (h : b ≠ 0xF6#8) (s : State) :
    scStatus b s = { s with dec :=
      { rs := 0x00#8, buf := Memory.write s.dec.buf 0 b, pos := 1, exp := scLength b
        inPort := s.dec.inPort
        dstat := if s.dec.sxOpen then s.dec.dstat ||| 0x02#8 else s.dec.dstat } } := by
  simp [scStatus, h, sysexAbort_spec, State.setDec, DecState.openFrame]

theorem scStatus_tuneRequest_spec (s : State) :
    scStatus 0xF6#8 s = { s with
      dec := { s.dec with
        rs := 0x00#8, pos := 0
        dstat := if s.dec.sxOpen then s.dec.dstat ||| 0x02#8 else s.dec.dstat }
      events := s.events ++ [scEvent [0xF6#8] s.dec.inPort] } := by
  simp [scStatus, sysexAbort_spec, State.setDec, State.emit, DecState.closeFrame]

/-- A real-time byte adds its record and changes nothing else. -/
theorem realTime_spec (b : Byte) (s : State) :
    realTime b s = { s with events := s.events ++ [rtEvent b s.dec.inPort] } := rfl

/-! ### DEC: the end of a SysEx frame -/

theorem eox_open {s : State} (h : s.dec.sxOpen = true) (hp : s.dec.pos < s.cfg.sysexCap) :
    eox s = .next { s with
      dec := { s.dec with
        rs := 0x00#8, pos := 0, buf := Memory.write s.dec.buf s.dec.pos 0xF7#8 }
      events := s.events ++
        [sxEvent (Memory.readFrame s.dec.buf s.dec.pos ++ [0xF7#8]) true s.dec.inPort] } := by
  unfold eox
  rw [if_pos h, DecState.append_eq_some.2 ⟨hp, rfl⟩]
  simp only [Memory.readFrame_write_succ]
  rfl

theorem eox_closed {s : State} (h : s.dec.sxOpen = false) :
    eox s = .next { s with dec := { s.dec with rs := 0x00#8, pos := 0 } } := by
  simp [eox, h, State.setDec, DecState.closeFrame]

/-- Everything `F7` can do. -/
theorem eox_cases (s : State) :
    (s.dec.sxOpen = true ∧ s.dec.pos < s.cfg.sysexCap ∧
      eox s = .next { s with
        dec := { s.dec with
          rs := 0x00#8, pos := 0, buf := Memory.write s.dec.buf s.dec.pos 0xF7#8 }
        events := s.events ++
          [sxEvent (Memory.readFrame s.dec.buf s.dec.pos ++ [0xF7#8]) true s.dec.inPort] })
    ∨ (s.dec.sxOpen = true ∧ s.cfg.sysexCap ≤ s.dec.pos ∧ eox s = .fault .bufferOverrun)
    ∨ (s.dec.sxOpen = false ∧
        eox s = .next { s with dec := { s.dec with rs := 0x00#8, pos := 0 } }) := by
  by_cases h : s.dec.sxOpen = true
  · by_cases hp : s.dec.pos < s.cfg.sysexCap
    · exact .inl ⟨h, hp, eox_open h hp⟩
    · refine .inr (.inl ⟨h, Nat.le_of_not_lt hp, ?_⟩)
      unfold eox
      rw [if_pos h, DecState.append_eq_none.2 (Nat.le_of_not_lt hp)]
  · have h' : s.dec.sxOpen = false := by simpa using h
    exact .inr (.inr ⟨h', eox_closed h'⟩)

/-! ### DEC: complete frames -/

theorem portSelect_spec (pp : Byte) (s : State) :
    (∃ p, resolvePort s.cfg pp = some p ∧
      portSelect pp s = { s with
        dec := { s.dec with inPort := p }, events := s.events ++ [psEvent pp p] })
    ∨ (resolvePort s.cfg pp = none ∧
      portSelect pp s = { s with dec := { s.dec with dstat := s.dec.dstat ||| 0x04#8 } }) := by
  unfold portSelect
  split
  · next h => exact .inr ⟨h, rfl⟩
  · next p h => exact .inl ⟨p, h, rfl⟩

/-- Everything the completion of a frame can do (R127), by the frame's status byte. -/
theorem complete_cases (s : State) :
    ((Memory.read s.dec.buf 0).toNat ≤ 0xEF ∧
      complete s = { s with
        dec := { s.dec with pos := if s.dec.rs ≠ 0x00#8 then 1 else 0 }
        events := s.events ++ [cvEvent (Memory.readFrame s.dec.buf s.dec.exp) s.dec.inPort] })
    ∨ (∃ p, Memory.read s.dec.buf 0 = 0xF5#8 ∧
      resolvePort s.cfg ((Memory.readFrame s.dec.buf s.dec.exp).getD 1 0#8) = some p ∧
      complete s = { s with
        dec := { s.dec with inPort := p, pos := if s.dec.rs ≠ 0x00#8 then 1 else 0 }
        events := s.events ++
          [psEvent ((Memory.readFrame s.dec.buf s.dec.exp).getD 1 0#8) p] })
    ∨ (Memory.read s.dec.buf 0 = 0xF5#8 ∧
      resolvePort s.cfg ((Memory.readFrame s.dec.buf s.dec.exp).getD 1 0#8) = none ∧
      complete s = { s with dec := { s.dec with
        dstat := s.dec.dstat ||| 0x04#8, pos := if s.dec.rs ≠ 0x00#8 then 1 else 0 } })
    ∨ (0xEF < (Memory.read s.dec.buf 0).toNat ∧ Memory.read s.dec.buf 0 ≠ 0xF5#8 ∧
      complete s = { s with
        dec := { s.dec with pos := if s.dec.rs ≠ 0x00#8 then 1 else 0 }
        events := s.events ++ [scEvent (Memory.readFrame s.dec.buf s.dec.exp) s.dec.inPort] }) := by
  unfold complete emitFrame
  by_cases h1 : (Memory.read s.dec.buf 0).toNat ≤ 0xEF
  · exact .inl ⟨h1, by simp only [h1, if_true]; rfl⟩
  · by_cases h2 : Memory.read s.dec.buf 0 = 0xF5#8
    · rcases portSelect_spec ((Memory.readFrame s.dec.buf s.dec.exp).getD 1 0#8) s with
        ⟨p, hp, he⟩ | ⟨hp, he⟩
      · exact .inr (.inl ⟨p, h2, hp, by simp only [h2, if_true, he]; rfl⟩)
      · exact .inr (.inr (.inl ⟨h2, hp, by simp only [h2, if_true, he]; rfl⟩))
    · exact .inr (.inr (.inr ⟨Nat.lt_of_not_le h1, h2, by simp only [h1, h2, if_false]; rfl⟩))

/-! ### DEC: data bytes -/

/-- `s` with `b` appended to the open frame. -/
def appended (b : Byte) (s : State) : State :=
  { s with dec := { s.dec with buf := Memory.write s.dec.buf s.dec.pos b, pos := s.dec.pos + 1 } }

/-- Everything a data byte can do (R126, R141). -/
theorem dataByte_cases (b : Byte) (s : State) :
    (s.dec.rs = 0x00#8 ∧ s.dec.sxOpen = false ∧ s.dec.pos = 0 ∧ dataByte b s = .next s)
    ∨ (s.dec.sxOpen = true ∧ s.dec.pos + 1 < s.cfg.sysexCap ∧
        dataByte b s = .next (appended b s))
    ∨ (s.dec.sxOpen = true ∧ s.dec.pos + 1 = s.cfg.sysexCap ∧
        dataByte b s = .next { s with
          dec := { s.dec with
            buf := Memory.write s.dec.buf s.dec.pos b, pos := 0, dstat := s.dec.dstat ||| 0x01#8 }
          events := s.events ++
            [sxEvent (Memory.readFrame s.dec.buf s.dec.pos ++ [b]) false s.dec.inPort] })
    ∨ (s.dec.sxOpen = false ∧ (s.dec.rs ≠ 0x00#8 ∨ s.dec.pos ≠ 0) ∧
        s.dec.pos < s.cfg.sysexCap ∧ s.dec.pos + 1 ≠ s.dec.exp ∧
        dataByte b s = .next (appended b s))
    ∨ (s.dec.sxOpen = false ∧ (s.dec.rs ≠ 0x00#8 ∨ s.dec.pos ≠ 0) ∧
        s.dec.pos < s.cfg.sysexCap ∧ s.dec.pos + 1 = s.dec.exp ∧
        dataByte b s = .next (complete (appended b s)))
    ∨ (s.cfg.sysexCap ≤ s.dec.pos ∧ dataByte b s = .fault .bufferOverrun) := by
  by_cases hx : s.dec.sxOpen = true
  · by_cases hp : s.dec.pos < s.cfg.sysexCap
    · have he : dataByte b s = .next (if s.dec.pos + 1 = s.cfg.sysexCap
          then truncate (appended b s) else appended b s) := by
        unfold dataByte sysexData
        rw [if_neg (by simp [hx]), if_pos hx, DecState.append_eq_some.2 ⟨hp, rfl⟩]
        rfl
      by_cases hc : s.dec.pos + 1 = s.cfg.sysexCap
      · refine .inr (.inr (.inl ⟨hx, hc, ?_⟩))
        rw [he, if_pos hc]
        simp only [truncate, appended, ← hc, Memory.readFrame_write_succ]
        rfl
      · exact .inr (.inl ⟨hx, by omega, by rw [he, if_neg hc]⟩)
    · refine .inr (.inr (.inr (.inr (.inr ⟨Nat.le_of_not_lt hp, ?_⟩))))
      unfold dataByte sysexData
      rw [if_neg (by simp [hx]), if_pos hx, DecState.append_eq_none.2 (Nat.le_of_not_lt hp)]
  · have hx' : s.dec.sxOpen = false := by simpa using hx
    by_cases h0 : s.dec.rs = 0x00#8 ∧ s.dec.pos = 0
    · exact .inl ⟨h0.1, hx', h0.2, by simp [dataByte, h0.1, h0.2, hx']⟩
    · have h0' : s.dec.rs ≠ 0x00#8 ∨ s.dec.pos ≠ 0 := by tauto
      by_cases hp : s.dec.pos < s.cfg.sysexCap
      · have he : dataByte b s = .next (if s.dec.pos + 1 = s.dec.exp
            then complete (appended b s) else appended b s) := by
          unfold dataByte
          rw [if_neg (by tauto), if_neg hx, DecState.append_eq_some.2 ⟨hp, rfl⟩]
          rfl
        by_cases hc : s.dec.pos + 1 = s.dec.exp
        · exact .inr (.inr (.inr (.inr (.inl ⟨hx', h0', hp, hc, by rw [he, if_pos hc]⟩))))
        · exact .inr (.inr (.inr (.inl ⟨hx', h0', hp, hc, by rw [he, if_neg hc]⟩)))
      · refine .inr (.inr (.inr (.inr (.inr ⟨Nat.le_of_not_lt hp, ?_⟩))))
        unfold dataByte
        rw [if_neg (by tauto), if_neg hx, DecState.append_eq_none.2 (Nat.le_of_not_lt hp)]

/-! ### ENC -/

theorem rejectCommand_spec (s : State) : rejectCommand s = rejected s := rfl

theorem portAccepted_iff (cfg : Config) (port : Nat) :
    portAccepted cfg port = true ↔ cfg.nPorts = 1 ∨ (1 ≤ port ∧ port ≤ cfg.nPorts) := by
  simp [portAccepted]

/-- The port announcement of an accepted command. -/
theorem routePrefix_spec {s : State} {port : Nat} (h : portAccepted s.cfg port = true) :
    routePrefix port s = sent s port [] (routeRs s port) := by
  unfold routePrefix sent routeBytes routeRs announces
  by_cases h1 : s.cfg.nPorts = 1
  · simp [h1]
  · have hp : 1 ≤ port := by rcases (portAccepted_iff _ _).1 h with h | h <;> omega
    by_cases h2 : s.enc.lastIdx = (port : Int) - 1
    · have h3 : ¬ (s.enc.lastIdx = -1 ∨ s.enc.lastIdx ≠ (port : Int) - 1) := by omega
      rw [if_neg h1, if_neg h3]
      simp [h2]
      rw [← h2]
    · simp [h1, h2, State.send, State.setEnc]

theorem runCommand_accepted {extra : Bool} {port : Nat} {s : State} (body : State → State)
    (he : extra = true) (h : portAccepted s.cfg port = true) :
    runCommand extra port body s = body (sent s port [] (routeRs s port)) := by
  simp [runCommand, he, h, routePrefix_spec h]

theorem runCommand_refused {extra : Bool} {port : Nat} {s : State} (body : State → State)
    (h : (extra && portAccepted s.cfg port) = false) :
    runCommand extra port body s = rejected s := by
  simp [runCommand, h, rejectCommand_spec]

theorem cvOut_sent (kind chan : Nibble) (body : List Byte) (s : State) (port : Nat) :
    cvOut kind chan body (sent s port [] (routeRs s port)) =
      sent s port ((if byteOf kind chan = routeRs s port then [] else [byteOf kind chan]) ++ body)
        (byteOf kind chan) := by
  by_cases h : byteOf kind chan = routeRs s port <;>
    simp [cvOut, sent, State.send, State.setEnc, h]

theorem plainOut_sent (bytes : List Byte) (s : State) (port : Nat) (rs : Byte) :
    plainOut bytes (sent s port [] rs) = sent s port bytes 0x00#8 := by
  simp [plainOut, sent, State.send, State.setEnc]

theorem rtOut_sent (kind : Nibble) (s : State) (port : Nat) (rs : Byte) :
    rtOut kind (sent s port [] rs) = sent s port [0xF0#8 ||| kind.setWidth 8] rs := by
  simp [rtOut, sent, State.send]

theorem x14Out_sent (chan : Nibble) (body : List Byte) (s : State) (port : Nat) (rs : Byte) :
    x14Out chan body (sent s port [] rs) =
      sent s port ((0xB0#8 ||| chan.setWidth 8) :: body) (0xB0#8 ||| chan.setWidth 8) := by
  simp [x14Out, sent, State.send, State.setEnc]

end Sys2Proof.Machine
end

