-- ==== Sys2Proof/Laws/Operands.lean ====
section
/-! SUPPORT. The operand forms in plain arithmetic: masks, splits and the assembly of 14-bit values; the
fields of the encoder's records. -/

namespace Sys2Proof

/-! ### Nibbles and fields -/

theorem highNibble_append (k c : Nibble) : highNibble (k ++ c) = k := by revert k c; decide

theorem lowNibble_append (k c : Nibble) : lowNibble (k ++ c) = c := by revert k c; decide

theorem byteOf_nibbles (b : Byte) : byteOf (highNibble b) (lowNibble b) = b := by revert b; decide

theorem setWidth_data (v : Data7) : (v.setWidth 8).setWidth 7 = v := by revert v; decide

theorem portInField_lt {p : Nat} (h : portInField p = true) : p < 32 := by
  simpa [portInField] using h

theorem paramInField_lt {p : Nat} (h : paramInField p = true) : p < 65536 := by
  simpa [paramInField] using h

theorem valInField_bmod {v : Int} (h : valInField v = true) : v.bmod 65536 = v := by
  simp [valInField] at h
  rw [Int.bmod_def]
  split <;> omega

namespace Machine

/-! ### Values the encoder sends -/

theorem lsb7_nat (w : Nat) : lsb7 w = BitVec.ofNat 8 (w % 128) := by
  unfold lsb7
  rw [show 0x7F = 2 ^ 7 - 1 from rfl, Nat.and_two_pow_sub_one_eq_mod]

theorem msb7_nat {w : Nat} (h : w < 16384) : msb7 w = BitVec.ofNat 8 (w / 128) := by
  unfold msb7
  rw [show 0x7F = 2 ^ 7 - 1 from rfl, Nat.and_two_pow_sub_one_eq_mod, Nat.shiftRight_eq_div_pow]
  congr 1
  simp
  omega

theorem wrap14_lt (v : Int) : wrap14 v < 16384 := by unfold wrap14; omega

theorem wrap14_nat (p : Nat) : wrap14 p = p % 16384 := by unfold wrap14; omega

theorem lsb7_wrap (v : Int) : lsb7 (wrap14 v) = BitVec.ofInt 8 (v % 16384 % 128) := by
  rw [lsb7_nat]
  unfold wrap14
  rw [show v % 16384 % 128 = (((v % 16384).toNat % 128 : Nat) : Int) by omega, BitVec.ofInt_natCast]

theorem msb7_wrap (v : Int) : msb7 (wrap14 v) = BitVec.ofInt 8 (v % 16384 / 128) := by
  rw [msb7_nat (wrap14_lt v)]
  unfold wrap14
  rw [show v % 16384 / 128 = (((v % 16384).toNat / 128 : Nat) : Int) by omega, BitVec.ofInt_natCast]

theorem lowData_eq (v : Int) : lowData v = BitVec.ofInt 8 (v % 128) := by
  unfold lowData
  have h : v % 128 = (((v % 128).toNat : Nat) : Int) := by omega
  generalize (v % 128).toNat = w at h
  rw [h, BitVec.ofInt_natCast]

theorem lsb7_isData (w : Nat) : isData (lsb7 w) := by
  rw [lsb7_nat, isData, BitVec.toNat_ofNat]
  omega

theorem msb7_isData (w : Nat) : isData (msb7 w) := by
  unfold msb7
  rw [show 0x7F = 2 ^ 7 - 1 from rfl, Nat.and_two_pow_sub_one_eq_mod, isData, BitVec.toNat_ofNat]
  omega

theorem mask7_isData (d : Byte) : isData (mask7 d) := by revert d; decide

theorem x14Status_eq (c : Nibble) : 0xB0#8 ||| c.setWidth 8 = byteOf 0xB#4 c := by revert c; decide

/-! ### Values the decoder reads -/

theorem word14_eq (d1 d2 : Data7) : word14 d1 d2 = d1.toNat + 128 * d2.toNat := by
  have := d1.isLt
  unfold word14
  rw [Nat.or_comm, ← Nat.shiftLeft_add_eq_or_of_lt (by omega), Nat.shiftLeft_eq]
  omega

theorem unbias14_eq (d1 d2 : Data7) :
    unbias14 d1 d2 = (d1.toNat : Int) + 128 * (d2.toNat : Int) - 8192 := by
  simp [unbias14, word14_eq]

theorem unbias14_range (d1 d2 : Data7) : -8192 ≤ unbias14 d1 d2 ∧ unbias14 d1 d2 ≤ 8191 := by
  have := d1.isLt
  have := d2.isLt
  rw [unbias14_eq]
  omega

/-- The port a data value selects, in plain arithmetic (R202). -/
theorem resolvePort_data (cfg : Config) (v : Data7) :
    resolvePort cfg (v.setWidth 8) =
      if v.toNat = 0 ∨ v.toNat = 127 then some 1
      else if v.toNat ≤ cfg.nPorts then some v.toNat else none := by
  have hv : v.toNat < 128 := v.isLt
  have hv8 : (v.setWidth 8).toNat = v.toNat := by simp; omega
  have z0 : (v.setWidth 8 = 0x00#8) ↔ v.toNat = 0 := by rw [← BitVec.toNat_inj, hv8]; rfl
  have z7 : (v.setWidth 8 = 0x7F#8) ↔ v.toNat = 127 := by rw [← BitVec.toNat_inj, hv8]; rfl
  unfold resolvePort
  simp only [z0, z7, hv8]
  split_ifs <;> first | rfl | omega

/-- A port a selection resolves to exists. -/
theorem resolvePort_range {cfg : Config} {pp : Byte} {p : Nat} (h : resolvePort cfg pp = some p) :
    1 ≤ p ∧ p ≤ cfg.nPorts := by
  have := Config.one_le_nPorts cfg
  unfold resolvePort at h
  split_ifs at h <;> simp at h <;> omega

end Machine

end Sys2Proof
end

