-- ==== Sys2Proof/Laws/Exec.lean ====
section
/-! SUPPORT. What an instruction can be and what it can do, said once: the wire bytes by class, the data
byte that completes a frame, and the commands of ENC. -/

namespace Sys2Proof.Machine

/-- The meaning of a wire byte, by the dispatch of R100. -/
theorem exec_wire (b : Byte) :
    (isRealTime b ∧ ∀ s, exec (decodeWire b) s = .next (realTime b s))
    ∨ (isChannelVoice b ∧
        ∀ s, exec (decodeWire b) s = .next (cvStatus (highNibble b) (lowNibble b) s))
    ∨ (b = 0xF0#8 ∧ ∀ s, exec (decodeWire b) s = .next (sysexStart s))
    ∨ (0xF0 < b.toNat ∧ b.toNat < 0xF7 ∧ ∀ s, exec (decodeWire b) s = .next (scStatus b s))
    ∨ (b = 0xF7#8 ∧ ∀ s, exec (decodeWire b) s = eox s)
    ∨ (isData b ∧ ∀ s, exec (decodeWire b) s = dataByte b s) := by
  by_cases hd : isData b
  · have h7 : b.getLsbD 7 = false := by revert b; decide
    have hw : (b.setWidth 7).setWidth 8 = b := by clear h7; revert b; decide
    refine .inr (.inr (.inr (.inr (.inr ⟨hd, fun s => ?_⟩))))
    unfold decodeWire
    rw [h7]
    show dataByte ((b.setWidth 7).setWidth 8) s = _
    rw [hw]
  · by_cases hs : 0xF0 ≤ b.toNat
    · have : b = 0xF0#8 ∨ b = 0xF1#8 ∨ b = 0xF2#8 ∨ b = 0xF3#8 ∨ b = 0xF4#8 ∨ b = 0xF5#8
          ∨ b = 0xF6#8 ∨ b = 0xF7#8 ∨ b = 0xF8#8 ∨ b = 0xF9#8 ∨ b = 0xFA#8 ∨ b = 0xFB#8
          ∨ b = 0xFC#8 ∨ b = 0xFD#8 ∨ b = 0xFE#8 ∨ b = 0xFF#8 := by clear hd; revert b; decide
      rcases this with rfl | rfl | rfl | rfl | rfl | rfl | rfl | rfl | rfl | rfl | rfl | rfl | rfl |
        rfl | rfl | rfl
      · exact .inr (.inr (.inl ⟨rfl, fun _ => rfl⟩))
      iterate 6 exact .inr (.inr (.inr (.inl ⟨by decide, by decide, fun _ => rfl⟩)))
      · exact .inr (.inr (.inr (.inr (.inl ⟨rfl, fun _ => rfl⟩))))
      all_goals exact .inl ⟨by decide, fun _ => rfl⟩
    · have hh : b.getLsbD 7 = true ∧ (highNibble b = 0x8#4 ∨ highNibble b = 0x9#4
          ∨ highNibble b = 0xA#4 ∨ highNibble b = 0xB#4 ∨ highNibble b = 0xC#4
          ∨ highNibble b = 0xD#4 ∨ highNibble b = 0xE#4) := by revert b; decide
      refine .inr (.inl ⟨⟨by simpa using hd, by omega⟩, fun s => ?_⟩)
      unfold decodeWire
      rw [if_pos hh.1]
      unfold decodeStatusByte
      rcases hh.2 with h | h | h | h | h | h | h <;> rw [h] <;> rfl

/-- A data byte runs `DataByte` (R126). -/
theorem exec_data {b : Byte} (h : isData b) (s : State) : exec (decodeWire b) s = dataByte b s := by
  rcases exec_wire b with ⟨h', _⟩ | ⟨h', _⟩ | ⟨rfl, _⟩ | ⟨h', _, _⟩ | ⟨rfl, _⟩ | ⟨_, e⟩
  · simp only [isData, isRealTime] at *; omega
  · simp only [isData, isChannelVoice] at *; omega
  · exact absurd h (by decide)
  · simp only [isData] at h; omega
  · exact absurd h (by decide)
  · exact e s

/-- A real-time byte runs `RealTime` (R110). -/
theorem exec_realTime {b : Byte} (h : isRealTime b) (s : State) :
    exec (decodeWire b) s = .next (realTime b s) := by
  rcases exec_wire b with ⟨_, e⟩ | ⟨h', _⟩ | ⟨rfl, _⟩ | ⟨_, h', _⟩ | ⟨rfl, _⟩ | ⟨h', _⟩
  · exact e s
  · simp only [isRealTime, isChannelVoice] at *; omega
  · exact absurd h (by decide)
  · simp only [isRealTime] at h; omega
  · exact absurd h (by decide)
  · simp only [isData, isRealTime] at *; omega

/-- A decoder fed with one list of bytes after another. -/
theorem feed_append (a b : List Byte) {s t : State} (h : feed a s = .next t) :
    feed (a ++ b) s = feed b t := by
  induction a generalizing s with
  | nil => cases h; rfl
  | cons x a ih =>
    simp only [feed, List.cons_append] at h ⊢
    split at h
    · exact ih h
    · cases h
    · cases h

/-- An instruction is a wire byte, a command of ENC or a control event. -/
theorem instr_cases (i : Instr) :
    (∃ b, i = decodeWire b ∧ encode i = .wire b)
    ∨ (∃ c, encode i = .command c)
    ∨ i ∈ [Instr.ctlDecReset, .ctlDecRxError, .ctlDecInRouteReset, .ctlDecDstatClear,
        .ctlDecStatusRead, .ctlEncReset, .ctlEncWriteError, .ctlEncIdleExpired, .ctlEncSubsEdge,
        .ctlEncEstatClear, .ctlEncStatusRead] := by
  cases i
  case decNoteOffStatus c => exact .inl ⟨_, by revert c; decide, rfl⟩
  case decNoteOnStatus c => exact .inl ⟨_, by revert c; decide, rfl⟩
  case decPolyPressureStatus c => exact .inl ⟨_, by revert c; decide, rfl⟩
  case decControllerStatus c => exact .inl ⟨_, by revert c; decide, rfl⟩
  case decProgramChangeStatus c => exact .inl ⟨_, by revert c; decide, rfl⟩
  case decChannelPressureStatus c => exact .inl ⟨_, by revert c; decide, rfl⟩
  case decPitchBendStatus c => exact .inl ⟨_, by revert c; decide, rfl⟩
  case decData v => exact .inl ⟨_, by revert v; decide, rfl⟩
  all_goals first
    | exact .inl ⟨_, by decide, rfl⟩
    | exact .inr (.inl ⟨_, rfl⟩)
    | exact .inr (.inr (by decide))

/-- Everything a command of ENC can do: it is refused, or it puts out the port announcement and its own
bytes and leaves 0, a channel-voice status or the running status it found. -/
theorem exec_command {i : Instr} {c : Command} (h : encode i = .command c) (s : State) :
    exec i s = .next (rejected s)
    ∨ ∃ port bytes rs, (s.cfg.nPorts = 1 ∨ (1 ≤ port ∧ port ≤ s.cfg.nPorts))
        ∧ (rs = 0x00#8 ∨ isChannelVoice rs ∨ rs = routeRs s port)
        ∧ exec i s = .next (sent s port bytes rs) := by
  have hcv : ∀ k ∈ [0x8#4, 0x9#4, 0xA#4, 0xB#4, 0xC#4, 0xD#4, 0xE#4], ∀ c : Nibble,
      isChannelVoice (byteOf k c) := by decide
  have key : ∀ (extra : Bool) (port : Nat) (body : State → State),
      (∃ bytes rs, (rs = 0x00#8 ∨ isChannelVoice rs ∨ rs = routeRs s port)
        ∧ body (sent s port [] (routeRs s port)) = sent s port bytes rs) →
      runCommand extra port body s = rejected s
      ∨ ∃ p bytes rs, (s.cfg.nPorts = 1 ∨ (1 ≤ p ∧ p ≤ s.cfg.nPorts))
        ∧ (rs = 0x00#8 ∨ isChannelVoice rs ∨ rs = routeRs s p)
        ∧ runCommand extra port body s = sent s p bytes rs := by
    intro extra port body ⟨bytes, rs, hrs, hb⟩
    by_cases ha : (extra && portAccepted s.cfg port) = true
    · rw [Bool.and_eq_true] at ha
      exact .inr ⟨port, bytes, rs, (portAccepted_iff _ _).1 ha.2, hrs,
        (runCommand_accepted body ha.1 ha.2).trans hb⟩
    · exact .inl (runCommand_refused body (by simpa using ha))
  have cv : ∀ k ∈ [0x8#4, 0x9#4, 0xA#4, 0xB#4, 0xC#4, 0xD#4, 0xE#4], ∀ (c : Nibble) (l : List Byte)
      (port : Nat), ∃ bytes rs, (rs = 0x00#8 ∨ isChannelVoice rs ∨ rs = routeRs s port)
        ∧ cvOut k c l (sent s port [] (routeRs s port)) = sent s port bytes rs :=
    fun k hk c l port => ⟨_, _, .inr (.inl (hcv k hk c)), cvOut_sent k c l s port⟩
  have lift : ∀ u : State, (u = rejected s ∨ ∃ port bytes rs,
        (s.cfg.nPorts = 1 ∨ (1 ≤ port ∧ port ≤ s.cfg.nPorts))
        ∧ (rs = 0x00#8 ∨ isChannelVoice rs ∨ rs = routeRs s port) ∧ u = sent s port bytes rs) →
      (Host.Outcome.next u : Host.Outcome State Fault Refusal) = .next (rejected s)
      ∨ ∃ port bytes rs, (s.cfg.nPorts = 1 ∨ (1 ≤ port ∧ port ≤ s.cfg.nPorts))
        ∧ (rs = 0x00#8 ∨ isChannelVoice rs ∨ rs = routeRs s port)
        ∧ (Host.Outcome.next u : Host.Outcome State Fault Refusal) = .next (sent s port bytes rs) := by
    rintro u (rfl | ⟨port, bytes, rs, hp, hr, rfl⟩)
    · exact .inl rfl
    · exact .inr ⟨port, bytes, rs, hp, hr, rfl⟩
  cases i <;> simp only [encode, reduceCtorEq] at h <;> apply lift <;> apply key
  all_goals first
    | exact cv _ (by decide) _ _ _
    | exact ⟨_, _, .inl rfl, plainOut_sent _ s _ _⟩
    | exact ⟨_, _, .inr (.inr rfl), rtOut_sent _ s _ _⟩
    | exact ⟨_, _, .inr (.inl (by rw [x14Status_eq]; exact hcv _ (by decide) _)), x14Out_sent _ _ s _ _⟩

/-- What checks 2 and 4 of `Accept` ask of a command record (R161). -/
def extraChecks (cfg : Config) (c : Command) : Bool :=
  (decide (c.cls ≠ 4#3) || cfg.extCc) && (decide (c.sel ≠ 0x40#7) || decide (c.param.toNat ≤ 31))

/-- `Accept` as the operations check it: the selector at decode, checks 2 and 4, then the port. -/
theorem Command.accept_eq (cfg : Config) (c : Command) :
    c.accept cfg = (acceptedSelectors.contains c.sel
      && (extraChecks cfg c && portAccepted cfg c.port.toNat)) := by
  unfold Command.accept extraChecks portAccepted
  cases acceptedSelectors.contains c.sel <;> cases (decide (c.cls ≠ 4#3) || cfg.extCc) <;>
    simp [Bool.and_comm]

/-- The class of a command is the top of its selector (R82). -/
theorem Command.cls_of_sel {c : Command} {v : BitVec 7} (h : c.sel = v) :
    c.cls = v.extractLsb' 4 3 := by
  subst h
  simp only [Command.sel]
  generalize c.cls = a
  generalize c.kind = b
  revert a b
  decide

/-- The kind of a command is the low nibble of its selector (R82). -/
theorem Command.kind_of_sel {c : Command} {v : BitVec 7} (h : c.sel = v) :
    c.kind = v.extractLsb' 0 4 := by
  subst h
  simp only [Command.sel]
  generalize c.cls = a
  generalize c.kind = b
  revert a b
  decide

/-- What a command record decodes to: nothing if its selector is not listed, else an instruction that runs
one body after the checks of `Accept`; the body adds the record's own bytes to an accepted command's
state. -/
theorem decodeCommand_cases (c : Command) :
    (acceptedSelectors.contains c.sel = false ∧ decodeCommand c = .error (.unlistedSelector c.sel))
    ∨ (acceptedSelectors.contains c.sel = true ∧ ∃ i body, decodeCommand c = .ok i
        ∧ (∀ s, exec i s = .next (runCommand (extraChecks s.cfg c) c.port.toNat body s))
        ∧ ∀ s, body (sent s c.port.toNat [] (routeRs s c.port.toNat)) =
            sent s c.port.toNat (ownBytes c (routeRs s c.port.toNat))
              (ownRs c (routeRs s c.port.toNat))) := by
  unfold decodeCommand
  split
  all_goals rename_i hs
  case h_23 =>
    refine .inl ⟨?_, rfl⟩
    simp only [acceptedSelectors, List.contains_eq_mem, decide_eq_false_iff_not, List.mem_cons,
      List.not_mem_nil, or_false]
    tauto
  all_goals refine .inr ⟨by rw [hs]; decide, ?_⟩
  all_goals have hcls := Command.cls_of_sel hs
  all_goals have hkind := Command.kind_of_sel hs
  all_goals simp only [ownBytes, ownRs, hcls, hkind]
  all_goals first
    | (have he : ∀ s : State, extraChecks s.cfg c = true := fun s => by
         simp [extraChecks, hs, hcls]
       first
       | exact ⟨_, cvOut _ _ _, rfl, fun s => by rw [he]; rfl, fun s => by
           rw [cvOut_sent]
           simp [byteOf, mask7, biasedPair, lsbFirst, bias14, lsb7_wrap, msb7_wrap]
           rfl⟩
       | exact ⟨_, plainOut _, rfl, fun s => by rw [he]; rfl, fun s => by
           rw [plainOut_sent]
           simp [biasedPair, lsbFirst, bias14, lsb7_wrap, msb7_wrap, lowData_eq]⟩
       | exact ⟨_, rtOut _, rfl, fun s => by rw [he]; rfl, fun s => by rw [rtOut_sent]; simp⟩)
    | (have he : ∀ s : State, extraChecks s.cfg c = (s.cfg.extCc && decide (c.param.toNat ≤ 31)) :=
         fun s => by simp [extraChecks, hs, hcls]
       exact ⟨_, x14Out _ _, rfl, fun s => by rw [he]; rfl, fun s => by
         rw [x14Out_sent, x14Status_eq]
         simp [byteOf, cc14Body, lsb7_wrap, msb7_wrap, BitVec.ofNat_add]⟩)
    | (have he : ∀ s : State, extraChecks s.cfg c = s.cfg.extCc :=
         fun s => by simp [extraChecks, hs, hcls]
       exact ⟨_, x14Out _ _, rfl, fun s => by rw [he]; rfl, fun s => by
         rw [x14Out_sent, x14Status_eq]
         simp [byteOf, paramBody, lsb7_wrap, msb7_wrap]⟩)

/-- What a listed command leaves in `rs_out`: 0, a channel-voice status byte, or what it found. -/
theorem ownRs_cases {c : Command} (h : acceptedSelectors.contains c.sel = true) (rs : Byte) :
    ownRs c rs = 0x00#8 ∨ isChannelVoice (ownRs c rs) ∨ ownRs c rs = rs := by
  have hcv : ∀ k ∈ [0x8#4, 0x9#4, 0xA#4, 0xB#4, 0xC#4, 0xD#4, 0xE#4], ∀ n : Nibble,
      isChannelVoice (k ++ n) := by decide
  have hk : ∀ (a : BitVec 3) (k : Nibble), acceptedSelectors.contains (a ++ k) = true → a = 0#3 →
      k ∈ [0x8#4, 0x9#4, 0xA#4, 0xB#4, 0xC#4, 0xD#4, 0xE#4] := by decide
  unfold ownRs
  split
  · next h0 => exact .inr (.inl (hcv _ (hk _ _ h h0) _))
  · split
    · exact .inr (.inr rfl)
    · split
      · exact .inr (.inl (hcv _ (by decide) _))
      · exact .inl rfl

/-- The data byte that completes an open frame other than SysEx. -/
theorem dataByte_completes {s : State} {b : Byte} (hx : Memory.read s.dec.buf 0 ≠ 0xF0#8)
    (h1 : 1 ≤ s.dec.pos) (h2 : s.dec.pos + 1 = s.dec.exp) (h3 : s.dec.exp ≤ 3) :
    dataByte b s = .next (complete (appended b s))
    ∧ Memory.read (appended b s).dec.buf 0 = Memory.read s.dec.buf 0
    ∧ Memory.readFrame (appended b s).dec.buf (appended b s).dec.exp =
        Memory.readFrame s.dec.buf s.dec.pos ++ [b] := by
  have := Config.three_le_sysexCap s.cfg
  have hx' : s.dec.sxOpen = false := by simp [DecState.sxOpen, hx]
  refine ⟨?_, Memory.read_write_ne _ _ (by omega), ?_⟩
  · rcases dataByte_cases b s with ⟨_, _, h, _⟩ | ⟨h, _, e⟩ | ⟨h, _, e⟩ | ⟨_, _, _, h, e⟩ |
      ⟨_, _, _, h, e⟩ | ⟨h, _⟩
    · omega
    · simp [hx'] at h
    · simp [hx'] at h
    · omega
    · exact e
    · omega
  · show Memory.readFrame (Memory.write s.dec.buf s.dec.pos b) s.dec.exp = _
    rw [← h2, Memory.readFrame_write_succ]

end Sys2Proof.Machine
end

