-- ==== Sys2Proof/Laws/PerInstr.lean ====
section
/-! SUPPORT. A statement for all instructions, made per instruction: an instruction's input goes to the
agent whose instruction it is (spec/10_state.md R20). -/

namespace Sys2Proof.Laws

/-- The input of `i` is an input of the agent that runs `i`. -/
def EncodeAgent.Statement (i : Instr) : Prop := (encode i).agent = i.agent

theorem EncodeAgent.decNoteOffStatus (chan : Nibble) :
    EncodeAgent.Statement (.decNoteOffStatus chan) := rfl

theorem EncodeAgent.decNoteOnStatus (chan : Nibble) :
    EncodeAgent.Statement (.decNoteOnStatus chan) := rfl

theorem EncodeAgent.decPolyPressureStatus (chan : Nibble) :
    EncodeAgent.Statement (.decPolyPressureStatus chan) := rfl

theorem EncodeAgent.decControllerStatus (chan : Nibble) :
    EncodeAgent.Statement (.decControllerStatus chan) := rfl

theorem EncodeAgent.decProgramChangeStatus (chan : Nibble) :
    EncodeAgent.Statement (.decProgramChangeStatus chan) := rfl

theorem EncodeAgent.decChannelPressureStatus (chan : Nibble) :
    EncodeAgent.Statement (.decChannelPressureStatus chan) := rfl

theorem EncodeAgent.decPitchBendStatus (chan : Nibble) :
    EncodeAgent.Statement (.decPitchBendStatus chan) := rfl

theorem EncodeAgent.decSysexStart : EncodeAgent.Statement .decSysexStart := rfl

theorem EncodeAgent.decQuarterFrame : EncodeAgent.Statement .decQuarterFrame := rfl

theorem EncodeAgent.decSongPosition : EncodeAgent.Statement .decSongPosition := rfl

theorem EncodeAgent.decSongSelect : EncodeAgent.Statement .decSongSelect := rfl

theorem EncodeAgent.decUndefinedF4 : EncodeAgent.Statement .decUndefinedF4 := rfl

theorem EncodeAgent.decPortSelect : EncodeAgent.Statement .decPortSelect := rfl

theorem EncodeAgent.decTuneRequest : EncodeAgent.Statement .decTuneRequest := rfl

theorem EncodeAgent.decEox : EncodeAgent.Statement .decEox := rfl

theorem EncodeAgent.decClock : EncodeAgent.Statement .decClock := rfl

theorem EncodeAgent.decTick : EncodeAgent.Statement .decTick := rfl

theorem EncodeAgent.decStart : EncodeAgent.Statement .decStart := rfl

theorem EncodeAgent.decContinue : EncodeAgent.Statement .decContinue := rfl

theorem EncodeAgent.decStop : EncodeAgent.Statement .decStop := rfl

theorem EncodeAgent.decUndefinedFD : EncodeAgent.Statement .decUndefinedFD := rfl

theorem EncodeAgent.decActiveSensing : EncodeAgent.Statement .decActiveSensing := rfl

theorem EncodeAgent.decReset : EncodeAgent.Statement .decReset := rfl

theorem EncodeAgent.decData (value : Data7) :
    EncodeAgent.Statement (.decData value) := rfl

theorem EncodeAgent.encNoteOff (chan : Nibble) (d1 d2 : Byte) (port : Nat) :
    EncodeAgent.Statement (.encNoteOff chan d1 d2 port) := rfl

theorem EncodeAgent.encNoteOn (chan : Nibble) (d1 d2 : Byte) (port : Nat) :
    EncodeAgent.Statement (.encNoteOn chan d1 d2 port) := rfl

theorem EncodeAgent.encPolyPress (chan : Nibble) (d1 d2 : Byte) (port : Nat) :
    EncodeAgent.Statement (.encPolyPress chan d1 d2 port) := rfl

theorem EncodeAgent.encControl (chan : Nibble) (d1 d2 : Byte) (port : Nat) :
    EncodeAgent.Statement (.encControl chan d1 d2 port) := rfl

theorem EncodeAgent.encProgram (chan : Nibble) (d1 : Byte) (port : Nat) :
    EncodeAgent.Statement (.encProgram chan d1 port) := rfl

theorem EncodeAgent.encChanPress (chan : Nibble) (d1 : Byte) (port : Nat) :
    EncodeAgent.Statement (.encChanPress chan d1 port) := rfl

theorem EncodeAgent.encPitchBend (chan : Nibble) (val : Int) (port : Nat) :
    EncodeAgent.Statement (.encPitchBend chan val port) := rfl

theorem EncodeAgent.encQFrame (val : Int) (port : Nat) :
    EncodeAgent.Statement (.encQFrame val port) := rfl

theorem EncodeAgent.encSongPos (val : Int) (port : Nat) :
    EncodeAgent.Statement (.encSongPos val port) := rfl

theorem EncodeAgent.encSongSel (val : Int) (port : Nat) :
    EncodeAgent.Statement (.encSongSel val port) := rfl

theorem EncodeAgent.encTuneReq (port : Nat) :
    EncodeAgent.Statement (.encTuneReq port) := rfl

theorem EncodeAgent.encClock (port : Nat) :
    EncodeAgent.Statement (.encClock port) := rfl

theorem EncodeAgent.encTick (port : Nat) :
    EncodeAgent.Statement (.encTick port) := rfl

theorem EncodeAgent.encStart (port : Nat) :
    EncodeAgent.Statement (.encStart port) := rfl

theorem EncodeAgent.encContinue (port : Nat) :
    EncodeAgent.Statement (.encContinue port) := rfl

theorem EncodeAgent.encStop (port : Nat) :
    EncodeAgent.Statement (.encStop port) := rfl

theorem EncodeAgent.encActSense (port : Nat) :
    EncodeAgent.Statement (.encActSense port) := rfl

theorem EncodeAgent.encSysReset (port : Nat) :
    EncodeAgent.Statement (.encSysReset port) := rfl

theorem EncodeAgent.encSysEx (payload : List Byte) (port : Nat) :
    EncodeAgent.Statement (.encSysEx payload port) := rfl

theorem EncodeAgent.encCc14 (chan : Nibble) (param : Nat) (val : Int) (port : Nat) :
    EncodeAgent.Statement (.encCc14 chan param val port) := rfl

theorem EncodeAgent.encNrpn (chan : Nibble) (param : Nat) (val : Int) (port : Nat) :
    EncodeAgent.Statement (.encNrpn chan param val port) := rfl

theorem EncodeAgent.encRpn (chan : Nibble) (param : Nat) (val : Int) (port : Nat) :
    EncodeAgent.Statement (.encRpn chan param val port) := rfl

theorem EncodeAgent.ctlDecReset : EncodeAgent.Statement .ctlDecReset := rfl

theorem EncodeAgent.ctlDecRxError : EncodeAgent.Statement .ctlDecRxError := rfl

theorem EncodeAgent.ctlDecInRouteReset : EncodeAgent.Statement .ctlDecInRouteReset := rfl

theorem EncodeAgent.ctlDecDstatClear : EncodeAgent.Statement .ctlDecDstatClear := rfl

theorem EncodeAgent.ctlDecStatusRead : EncodeAgent.Statement .ctlDecStatusRead := rfl

theorem EncodeAgent.ctlEncReset : EncodeAgent.Statement .ctlEncReset := rfl

theorem EncodeAgent.ctlEncWriteError : EncodeAgent.Statement .ctlEncWriteError := rfl

theorem EncodeAgent.ctlEncIdleExpired : EncodeAgent.Statement .ctlEncIdleExpired := rfl

theorem EncodeAgent.ctlEncSubsEdge : EncodeAgent.Statement .ctlEncSubsEdge := rfl

theorem EncodeAgent.ctlEncEstatClear : EncodeAgent.Statement .ctlEncEstatClear := rfl

theorem EncodeAgent.ctlEncStatusRead : EncodeAgent.Statement .ctlEncStatusRead := rfl

end Sys2Proof.Laws
end

