-- ==== Sys2Proof/Tests/Slice0.lean ====
section
/-! SUPPORT. The model's own tests: the smoke test of well-formedness, the decoding of one written-out word
for every constructor, single steps whose results are the worked examples of the spec's rules and of
spec/95_test_vectors.md, and, for every statement with hypotheses, a state and operands that meet them. -/

namespace Sys2Proof.Tests

open Sys2Proof.Machine

/-! ### Well-formedness (R81) -/

theorem test_ill_formed_port : (Instr.encClock 32).wellFormed = false := by decide

theorem test_ill_formed_val_high : (Instr.encPitchBend 0 32768 1).wellFormed = false := by decide

theorem test_ill_formed_val_low : (Instr.encQFrame (-32769) 1).wellFormed = false := by decide

theorem test_ill_formed_param : (Instr.encNrpn 0 65536 0 1).wellFormed = false := by decide

theorem test_well_formed_at_bounds :
    (Instr.encRpn 15 65535 (-32768) 31).wellFormed = true
    ∧ (Instr.encCc14 0 0 32767 0).wellFormed = true := by decide

/-! ### Decoding, each word written out from the tables of R71, R83 and R84 -/

theorem test_decode_channel_voice_status :
    decode (.wire 0b10000000#8) = .ok (.decNoteOffStatus 0)
    ∧ decode (.wire 0b10010011#8) = .ok (.decNoteOnStatus 3)
    ∧ decode (.wire 0b10100001#8) = .ok (.decPolyPressureStatus 1)
    ∧ decode (.wire 0b10111111#8) = .ok (.decControllerStatus 15)
    ∧ decode (.wire 0b11000101#8) = .ok (.decProgramChangeStatus 5)
    ∧ decode (.wire 0b11010010#8) = .ok (.decChannelPressureStatus 2)
    ∧ decode (.wire 0b11101000#8) = .ok (.decPitchBendStatus 8) := by decide

theorem test_decode_system_status :
    decode (.wire 0b11110000#8) = .ok .decSysexStart
    ∧ decode (.wire 0b11110001#8) = .ok .decQuarterFrame
    ∧ decode (.wire 0b11110010#8) = .ok .decSongPosition
    ∧ decode (.wire 0b11110011#8) = .ok .decSongSelect
    ∧ decode (.wire 0b11110100#8) = .ok .decUndefinedF4
    ∧ decode (.wire 0b11110101#8) = .ok .decPortSelect
    ∧ decode (.wire 0b11110110#8) = .ok .decTuneRequest
    ∧ decode (.wire 0b11110111#8) = .ok .decEox := by decide

theorem test_decode_real_time :
    decode (.wire 0b11111000#8) = .ok .decClock
    ∧ decode (.wire 0b11111001#8) = .ok .decTick
    ∧ decode (.wire 0b11111010#8) = .ok .decStart
    ∧ decode (.wire 0b11111011#8) = .ok .decContinue
    ∧ decode (.wire 0b11111100#8) = .ok .decStop
    ∧ decode (.wire 0b11111101#8) = .ok .decUndefinedFD
    ∧ decode (.wire 0b11111110#8) = .ok .decActiveSensing
    ∧ decode (.wire 0b11111111#8) = .ok .decReset := by decide

theorem test_decode_data :
    decode (.wire 0b00000000#8) = .ok (.decData 0) ∧ decode (.wire 0b01111111#8) = .ok (.decData 127) := by
  decide

theorem test_decode_channel_voice_commands :
    decode (.command { Command.bare 0b000#3 0b1000#4 with chan := 1, d1 := 0x3C, d2 := 0x40, port := 1 })
        = .ok (.encNoteOff 1 0x3C 0x40 1)
    ∧ decode (.command { Command.bare 0b000#3 0b1001#4 with chan := 2, d1 := 0xFF, d2 := 0x80, port := 31 })
        = .ok (.encNoteOn 2 0xFF 0x80 31)
    ∧ decode (.command { Command.bare 0b000#3 0b1010#4 with d1 := 1, d2 := 2 })
        = .ok (.encPolyPress 0 1 2 0)
    ∧ decode (.command { Command.bare 0b000#3 0b1011#4 with d1 := 7, d2 := 0x64 })
        = .ok (.encControl 0 7 0x64 0)
    ∧ decode (.command { Command.bare 0b000#3 0b1100#4 with chan := 5, d1 := 0x10, d2 := 0x55 })
        = .ok (.encProgram 5 0x10 0)
    ∧ decode (.command { Command.bare 0b000#3 0b1101#4 with chan := 2, d1 := 0x7F })
        = .ok (.encChanPress 2 0x7F 0)
    ∧ decode (.command { Command.bare 0b000#3 0b1110#4 with chan := 3, val := 0x8000 })
        = .ok (.encPitchBend 3 (-32768) 0) := by decide

theorem test_decode_system_commands :
    decode (.command { Command.bare 0b001#3 0b0001#4 with val := 0x35 }) = .ok (.encQFrame 0x35 0)
    ∧ decode (.command { Command.bare 0b001#3 0b0010#4 with val := 0xE010 }) = .ok (.encSongPos (-8176) 0)
    ∧ decode (.command { Command.bare 0b001#3 0b0011#4 with val := 5 }) = .ok (.encSongSel 5 0)
    ∧ decode (.command (Command.bare 0b001#3 0b0110#4)) = .ok (.encTuneReq 0)
    ∧ decode (.command { Command.bare 0b011#3 0b0000#4 with payload := [0xF0, 0xF7] })
        = .ok (.encSysEx [0xF0, 0xF7] 0) := by decide

theorem test_decode_real_time_commands :
    decode (.command (Command.bare 0b010#3 0b1000#4)) = .ok (.encClock 0)
    ∧ decode (.command (Command.bare 0b010#3 0b1001#4)) = .ok (.encTick 0)
    ∧ decode (.command (Command.bare 0b010#3 0b1010#4)) = .ok (.encStart 0)
    ∧ decode (.command (Command.bare 0b010#3 0b1011#4)) = .ok (.encContinue 0)
    ∧ decode (.command (Command.bare 0b010#3 0b1100#4)) = .ok (.encStop 0)
    ∧ decode (.command (Command.bare 0b010#3 0b1110#4)) = .ok (.encActSense 0)
    ∧ decode (.command (Command.bare 0b010#3 0b1111#4)) = .ok (.encSysReset 0) := by decide

theorem test_decode_extended_commands :
    decode (.command { Command.bare 0b100#3 0b0000#4 with param := 7, val := 0x1234 })
        = .ok (.encCc14 0 7 0x1234 0)
    ∧ decode (.command { Command.bare 0b100#3 0b0001#4 with param := 0xFFFF, val := 1, port := 4 })
        = .ok (.encNrpn 0 65535 1 4)
    ∧ decode (.command { Command.bare 0b100#3 0b0010#4 with chan := 9, param := 2 })
        = .ok (.encRpn 9 2 0 0) := by decide

theorem test_decode_control_events :
    decode (.decControl 0b000#3) = .ok .ctlDecReset
    ∧ decode (.decControl 0b001#3) = .ok .ctlDecRxError
    ∧ decode (.decControl 0b010#3) = .ok .ctlDecInRouteReset
    ∧ decode (.decControl 0b011#3) = .ok .ctlDecDstatClear
    ∧ decode (.decControl 0b100#3) = .ok .ctlDecStatusRead
    ∧ decode (.encControl 0b000#3) = .ok .ctlEncReset
    ∧ decode (.encControl 0b001#3) = .ok .ctlEncWriteError
    ∧ decode (.encControl 0b010#3) = .ok .ctlEncIdleExpired
    ∧ decode (.encControl 0b011#3) = .ok .ctlEncSubsEdge
    ∧ decode (.encControl 0b100#3) = .ok .ctlEncEstatClear
    ∧ decode (.encControl 0b101#3) = .ok .ctlEncStatusRead := by decide

/-- Selectors R86 names as refused: `0x15`, `0x14`, `0x2D`, kind 0 of CV, and class 5. -/
theorem test_decode_refuses_unlisted_selectors :
    decode (.command (Command.bare 1 5)) = .error (.unlistedSelector 0x15)
    ∧ decode (.command (Command.bare 1 4)) = .error (.unlistedSelector 0x14)
    ∧ decode (.command (Command.bare 2 0xD)) = .error (.unlistedSelector 0x2D)
    ∧ decode (.command (Command.bare 0 0)) = .error (.unlistedSelector 0)
    ∧ decode (.command (Command.bare 5 0)) = .error (.unlistedSelector 0x50) := by decide

/-- The table's formats share a number space: a listed selector wins over a data byte. -/
theorem test_table_words :
    decodeTableWord 8 0x93 = some (.decNoteOnStatus 3) ∧ decodeTableWord 8 0x09 = some (.encNoteOn 0 0 0 0)
    ∧ decodeTableWord 8 0x01 = some .ctlDecRxError ∧ decodeTableWord 8 0x05 = some .ctlEncStatusRead
    ∧ decodeTableWord 8 0x7F = some (.decData 0x7F) := by decide

/-! ### Single steps -/

/-- The instruction completes in a state that passes `check`. -/
def completes (i : Instr) (s : State) (check : State → Bool) : Bool :=
  match exec i s with
  | .next t => check t
  | .fault _ => false
  | .refused _ => false

/-- The state after reset with `N_PORTS = 4`, `SYSEX_CAP = 4` and `EXT_CC`. -/
def small : State := State.resetWith (Config.ofParams 4 4 true)

/-- `small` with an open frame of the given bytes. -/
def opened (rs : Byte) (frame : List Byte) (exp : Nat) : State :=
  { small with dec := { small.dec with
      rs := rs, pos := frame.length, exp := exp
      buf := (List.range frame.length).map (fun a => (a, frame.getD a 0)) } }

/-- `small` with the given running status and last announced port index on the output. -/
def sending (rsOut : Byte) (lastIdx : Int) : State :=
  { small with enc := { small.enc with rsOut := rsOut, lastIdx := lastIdx } }

/-- ENC's instruction puts out exactly these bytes and leaves this running status. -/
def puts (i : Instr) (s : State) (bytes : List Byte) (rs : Byte) : Bool :=
  completes i s fun t => t.wireOut == bytes && t.enc.rsOut == rs

/-- R102: a channel-voice status byte opens a frame of 2 (C, D) or 3 bytes. -/
theorem test_cv_status :
    ([(Instr.decNoteOffStatus 2, (0x82 : Byte), 3), (.decNoteOnStatus 2, 0x92, 3),
      (.decPolyPressureStatus 2, 0xA2, 3), (.decControllerStatus 2, 0xB2, 3),
      (.decProgramChangeStatus 2, 0xC2, 2), (.decChannelPressureStatus 2, 0xD2, 2),
      (.decPitchBendStatus 2, 0xE2, 3)].all fun p =>
      completes p.1 State.reset fun t =>
        t.dec.rs == p.2.1 && t.dec.pos == 1 && t.dec.exp == p.2.2
          && Memory.read t.dec.buf 0 == p.2.1) = true := by decide

/-- R119, after running status `90`: it is cleared. -/
theorem test_sc_status :
    ([(Instr.decQuarterFrame, (0xF1 : Byte), 2), (.decSongPosition, 0xF2, 3), (.decSongSelect, 0xF3, 2),
      (.decUndefinedF4, 0xF4, 2), (.decPortSelect, 0xF5, 2)].all fun p =>
      completes p.1 (opened 0x90 [0x90] 3) fun t =>
        t.dec.rs == 0 && t.dec.pos == 1 && t.dec.exp == p.2.2
          && Memory.read t.dec.buf 0 == p.2.1) = true := by decide

/-- R125: `F0 01 F6` sets `SX_ABORT` and emits the TuneRequest. -/
theorem test_tune_request_in_sysex :
    completes .decTuneRequest (opened 0 [0xF0, 0x01] 4) (fun t =>
      t.dec.dstat == 0x02 && t.dec.pos == 0 && t.events.map (·.raw) == [[0xF6]]) = true := by decide

/-- R145: `F0 01 F0` sets `SX_ABORT` and starts over. -/
theorem test_sysex_start_in_sysex :
    completes .decSysexStart (opened 0 [0xF0, 0x01] 4) (fun t =>
      t.dec.dstat == 0x02 && t.dec.pos == 1 && t.dec.exp == 4 && t.events == []) = true := by decide

/-- R142: `F0 01 02 F7` fills the buffer of 4 and is complete, not truncated. -/
theorem test_end_of_sysex :
    completes .decEox (opened 0 [0xF0, 0x01, 0x02] 4) (fun t =>
      t.events.map (fun e => (e.raw, e.eox)) == [([0xF0, 0x01, 0x02, 0xF7], true)]
        && t.dec.dstat == 0) = true := by decide

/-- R143: a stray `F7` clears running status. -/
theorem test_stray_end_of_sysex :
    completes .decEox (opened 0x90 [0x90] 3) (fun t =>
      t.dec.rs == 0 && t.dec.pos == 0 && t.events == []) = true := by decide

/-- R110 to R118, inside a frame. -/
theorem test_real_time :
    ([(Instr.decClock, (0xF8 : Byte), (8 : Nibble)), (.decTick, 0xF9, 9), (.decStart, 0xFA, 0xA),
      (.decContinue, 0xFB, 0xB), (.decStop, 0xFC, 0xC), (.decUndefinedFD, 0xFD, 0xD),
      (.decActiveSensing, 0xFE, 0xE), (.decReset, 0xFF, 0xF)].all fun p =>
      completes p.1 (opened 0x90 [0x90, 0x40] 3) fun t =>
        t.dec == (opened 0x90 [0x90, 0x40] 3).dec
          && t.events.map (fun e => (e.raw, e.kind)) == [([p.2.1], p.2.2)]) = true := by decide

/-- R103: `80 3C 40` → NoteOff ch=0 d1=3C d2=40; R109: `E0 7F 7F` → 8191. -/
theorem test_data_completes_two_data_frames :
    completes (.decData 0x40) (opened 0x80 [0x80, 0x3C] 3) (fun t =>
      t.events.map (fun e => (e.kind, e.chan, e.d1, e.d2)) == [(8, 0, 0x3C, 0x40)]
        && t.dec.pos == 1) = true
    ∧ completes (.decData 0x7F) (opened 0xE0 [0xE0, 0x7F] 3) (fun t =>
        t.events.map (·.val) == [8191]) = true := by decide

/-- R144 with `SYSEX_CAP = 4`: `F0 01 02 03` is emitted truncated. -/
theorem test_data_truncates_sysex :
    completes (.decData 0x03) (opened 0 [0xF0, 0x01, 0x02] 4) (fun t =>
      t.events.map (fun e => (e.raw, e.eox)) == [([0xF0, 0x01, 0x02, 0x03], false)]
        && t.dec.dstat == 0x01 && t.dec.pos == 0) = true := by decide

/-- R203 with `N_PORTS = 4`: `F5 09` selects nothing and sets `PORT_RANGE`; `F5 03` selects port 3. -/
theorem test_data_selects_port :
    completes (.decData 9) (opened 0 [0xF5] 2) (fun t =>
      t.dec.dstat == 0x04 && t.dec.inPort == 1 && t.events == []) = true
    ∧ completes (.decData 3) (opened 0 [0xF5] 2) (fun t =>
        t.dec.inPort == 3 && t.events.map (·.port) == [3]) = true := by decide

/-- R80: the class codes, and selectors numbered as in the table of R83 (NoteOff `08`, QuarterFrame `11`,
Clock `28`, SysEx `30`). -/
theorem test_event_selectors :
    [EventClass.cv, .sc, .rt, .sx, .ps].map (fun c => c.code.toNat) = [0, 1, 2, 3, 5]
    ∧ (cvEvent [0x83, 0x3C, 0x40] 1).sel = 0x08 ∧ (scEvent [0xF1, 0x35] 1).sel = 0x11
    ∧ (rtEvent 0xF8 1).sel = 0x28 ∧ (sxEvent [0xF0, 0xF7] true 1).sel = 0x30
    ∧ (psEvent 3 3).sel = 0x55 := by decide

/-- R163 to R169: the examples of the rules, port 1 already announced, nothing in `rs_out`. -/
theorem test_channel_voice_commands :
    puts (.encNoteOff 0 0x3C 0x40 1) (sending 0 0) [0x80, 0x3C, 0x40] 0x80 = true
    ∧ puts (.encPolyPress 1 0x40 0x22 1) (sending 0 0) [0xA1, 0x40, 0x22] 0xA1 = true
    ∧ puts (.encControl 0 0x07 0x64 1) (sending 0xB0 0) [0x07, 0x64] 0xB0 = true
    ∧ puts (.encProgram 5 0x11 1) (sending 0xC5 0) [0x11] 0xC5 = true
    ∧ puts (.encChanPress 2 0x7F 1) (sending 0 0) [0xD2, 0x7F] 0xD2 = true
    ∧ puts (.encPitchBend 3 0 1) (sending 0 0) [0xE3, 0x00, 0x40] 0xE3 = true := by decide

/-- R208: `NOTEON 0,0x40,0x7F @2` after port 1 → `F5 02 90 40 7F`, though `rs_out` was `90`. -/
theorem test_note_on_to_new_port :
    completes (.encNoteOn 0 0x40 0x7F 2) (sending 0x90 0) (fun t =>
      t.wireOut == [0xF5, 0x02, 0x90, 0x40, 0x7F] && t.enc.lastIdx == 1) = true := by decide

/-- R169: `val = 8192` wraps to `00 00` and `val = -8193` to `7F 7F`. -/
theorem test_pitch_bend_wraps :
    puts (.encPitchBend 0 8192 1) (sending 0 0) [0xE0, 0x00, 0x00] 0xE0 = true
    ∧ puts (.encPitchBend 0 (-8193) 1) (sending 0 0) [0xE0, 0x7F, 0x7F] 0xE0 = true := by decide

/-- R171 to R174 and R183. -/
theorem test_system_commands :
    puts (.encQFrame 0x135 1) (sending 0x90 0) [0xF1, 0x35] 0 = true
    ∧ puts (.encSongPos (-8176) 1) (sending 0x90 0) [0xF2, 0x10, 0x00] 0 = true
    ∧ puts (.encSongSel 5 1) (sending 0x90 0) [0xF3, 0x05] 0 = true
    ∧ puts (.encTuneReq 1) (sending 0x90 0) [0xF6] 0 = true
    ∧ puts (.encSysEx [] 1) (sending 0x90 0) [] 0 = true := by decide

/-- R175 to R182: `rs_out` is kept. -/
theorem test_real_time_commands :
    ([(Instr.encClock 1, (0xF8 : Byte)), (.encTick 1, 0xF9), (.encStart 1, 0xFA), (.encContinue 1, 0xFB),
      (.encStop 1, 0xFC), (.encActSense 1, 0xFE), (.encSysReset 1, 0xFF)].all fun p =>
      puts p.1 (sending 0x90 0) [p.2] 0x90) = true := by decide

/-- R185 to R187: the examples of the rules; the status byte is sent although `rs_out` equals it. -/
theorem test_extended_commands :
    puts (.encCc14 0 7 0x1234 1) (sending 0xB0 0) [0xB0, 0x07, 0x24, 0x27, 0x34] 0xB0 = true
    ∧ puts (.encNrpn 0 0x0101 0x0203 1) (sending 0 0)
        [0xB0, 0x63, 0x02, 0x62, 0x01, 0x06, 0x04, 0x26, 0x03] 0xB0 = true
    ∧ puts (.encRpn 0 0 0x0100 1) (sending 0 0)
        [0xB0, 0x65, 0x00, 0x64, 0x00, 0x06, 0x02, 0x26, 0x00] 0xB0 = true := by decide

/-- R161, R189: a port above `N_PORTS`, a controller above 31, no `EXT_CC`: `REJECT` and no bytes. -/
theorem test_refused_commands :
    ([Instr.encNoteOn 0 1 2 5, .encNoteOn 0 1 2 0, .encCc14 0 32 0 1].all fun i =>
      completes i (sending 0x90 0) fun t =>
        t.enc == { (sending 0x90 0).enc with estat := 0x01 } && t.wireOut == []) = true
    ∧ completes (.encNrpn 0 0 0 1) State.reset (fun t => t.enc.estat == 0x01 && t.wireOut == []) = true := by
  decide

/-- R220 to R223 from a state with everything set. -/
theorem test_dec_control_events :
    completes .ctlDecReset { opened 0x90 [0x90, 0x40] 3 with cfg := small.cfg } (fun t =>
      t.dec == DecState.reset) = true
    ∧ completes .ctlDecRxError (opened 0x90 [0x90, 0x40] 3) (fun t =>
        t.dec.pos == 0 && t.dec.rs == 0 && t.dec.exp == 3) = true
    ∧ completes .ctlDecInRouteReset { small with dec := { small.dec with inPort := 3 } } (fun t =>
        t.dec.inPort == 1) = true
    ∧ completes .ctlDecDstatClear { small with dec := { small.dec with dstat := 0x07 } } (fun t =>
        t.dec.dstat == 0) = true
    ∧ completes .ctlDecStatusRead { small with dec := { small.dec with dstat := 0x05 } } (fun t =>
        t.decReads == [0x05] && t.dec.dstat == 0x05) = true := by decide

/-- R224 to R229. -/
theorem test_enc_control_events :
    completes .ctlEncReset (sending 0x90 2) (fun t => t.enc == EncState.reset) = true
    ∧ completes .ctlEncWriteError (sending 0x90 2) (fun t =>
        t.enc.rsOut == 0 && t.enc.lastIdx == -1) = true
    ∧ completes .ctlEncIdleExpired (sending 0x90 2) (fun t =>
        t.enc.rsOut == 0x90 && t.enc.lastIdx == -1) = true
    ∧ completes .ctlEncSubsEdge (sending 0x90 2) (fun t =>
        t.enc.rsOut == 0x90 && t.enc.lastIdx == -1) = true
    ∧ completes .ctlEncEstatClear { small with enc := { small.enc with estat := 1 } } (fun t =>
        t.enc.estat == 0) = true
    ∧ completes .ctlEncStatusRead { small with enc := { small.enc with estat := 1 } } (fun t =>
        t.encReads == [0x01] && t.enc.estat == 0x01) = true := by decide

/-! ### The hypotheses of the statements are met -/

/-- A command record for `port` in the configuration of `small`. -/
def presenting (c : Command) : State := { small with inputs := [.command c] }

theorem witness_DecodeOfEncodeGivesInstruction :
    (Instr.encCc14 15 31 (-32768) 31).wellFormed = true ∧ (Instr.decData 127).wellFormed = true := by
  decide

theorem witness_DecodedInputIsCanonical :
    decode (.encControl 5) = .ok .ctlEncStatusRead
    ∧ decode (.command { Command.bare 2 8 with chan := 3, port := 31 }) = .ok (.encClock 31) := by decide

theorem witness_StepRunsDecodedInstruction :
    { small with inputs := [.wire 0x90, .wire 0x40] }.inputs = .wire 0x90 :: [.wire 0x40]
    ∧ decode (.wire 0x90) = .ok (.decNoteOnStatus 0) := by decide

theorem witness_StepWithoutInputKeepsState : small.inputs = [] := by decide

theorem witness_ReservedControlCodeIsRefused :
    5 ≤ (5 : BitVec 3).toNat ∧ { small with inputs := [.decControl 5] }.inputs = .decControl 5 :: []
    ∧ 6 ≤ (6 : BitVec 3).toNat ∧ { small with inputs := [.encControl 6] }.inputs = .encControl 6 :: [] := by
  decide

/-- Also of `StepEmitsAtMostOneEvent`, whose last clause asks for a step that emits. -/
theorem witness_ConfigurationAndInputsAreKept :
    ∃ t, exec .decClock small = .next t ∧ t.events ≠ small.events := ⟨_, rfl, by decide⟩

theorem witness_StatusByteAbortsOpenSysex :
    (opened 0 [0xF0, 0x01, 0x02] 4).dec.sxOpen = true
    ∧ (0x80 ≤ (0x80 : Byte).toNat ∧ (0x80 : Byte).toNat < 0xF8 ∧ (0x80 : Byte) ≠ 0xF7)
    ∧ (0x80 ≤ (0xF6 : Byte).toNat ∧ (0xF6 : Byte).toNat < 0xF8 ∧ (0xF6 : Byte) ≠ 0xF7) := by decide

/-- `pos` at both ends of its range, 1 and `SYSEX_CAP - 1`. -/
theorem witness_EndOfSysexEmitsFrame :
    ∀ s ∈ [opened 0 [0xF0] 4, opened 0 [0xF0, 0x01, 0x02] 4],
      s.dec.sxOpen = true ∧ s.dec.pos < s.cfg.sysexCap := by decide

theorem witness_StrayEndOfSysexClearsRunningStatus :
    small.dec.sxOpen = false ∧ (opened 0x90 [0x90, 0x40] 3).dec.sxOpen = false := by decide

theorem witness_RealTimeByteIsTransparent :
    isRealTime 0xF8 ∧ isRealTime 0xFF
    ∧ ∃ t, exec (.decData 0x7F) (opened 0x90 [0x90, 0x40] 3) = .next t :=
  ⟨by decide, by decide, _, rfl⟩

theorem witness_StrayDataByteIsDiscarded : small.dec.rs = 0 ∧ small.dec.pos = 0 := by decide

/-- The byte that fills the buffer, and one that does not. -/
theorem witness_SysexDataIsStoredOrTruncates :
    ((opened 0 [0xF0, 0x01, 0x02] 4).dec.sxOpen = true
      ∧ (opened 0 [0xF0, 0x01, 0x02] 4).dec.pos < small.cfg.sysexCap
      ∧ (opened 0 [0xF0, 0x01, 0x02] 4).dec.pos + 1 = small.cfg.sysexCap)
    ∧ (opened 0 [0xF0, 0x01] 4).dec.sxOpen = true ∧ (opened 0 [0xF0, 0x01] 4).dec.pos + 1 < small.cfg.sysexCap := by
  decide

theorem witness_DataByteExtendsOpenFrame :
    (opened 0x90 [0x90] 3).dec.sxOpen = false ∧ 1 ≤ (opened 0x90 [0x90] 3).dec.pos
    ∧ (opened 0x90 [0x90] 3).dec.pos + 1 < (opened 0x90 [0x90] 3).dec.exp
    ∧ (opened 0x90 [0x90] 3).dec.pos < (opened 0x90 [0x90] 3).cfg.sysexCap := by decide

/-- The open frame of each kind and channel that awaits its one data byte. -/
theorem witness_OneDataChannelVoiceFrameCompletes :
    ∀ kind ∈ [(0xC : Nibble), 0xD], ∀ chan ∈ [(0 : Nibble), 15],
      (opened (kind ++ chan) [kind ++ chan] 2).dec.rs = kind ++ chan
      ∧ Memory.read (opened (kind ++ chan) [kind ++ chan] 2).dec.buf 0 = kind ++ chan
      ∧ (opened (kind ++ chan) [kind ++ chan] 2).dec.pos = 1
      ∧ (opened (kind ++ chan) [kind ++ chan] 2).dec.exp = 2 := by decide

theorem witness_TwoDataChannelVoiceFrameCompletes :
    ∀ kind ∈ [(0x8 : Nibble), 0x9, 0xA, 0xB, 0xE], ∀ d1 ∈ [(0 : Data7), 127],
      (opened (kind ++ 15#4) [kind ++ 15#4, d1.setWidth 8] 3).dec.rs = kind ++ 15#4
      ∧ Memory.read (opened (kind ++ 15#4) [kind ++ 15#4, d1.setWidth 8] 3).dec.buf 0 = kind ++ 15#4
      ∧ Memory.read (opened (kind ++ 15#4) [kind ++ 15#4, d1.setWidth 8] 3).dec.buf 1 = d1.setWidth 8
      ∧ (opened (kind ++ 15#4) [kind ++ 15#4, d1.setWidth 8] 3).dec.pos = 2
      ∧ (opened (kind ++ 15#4) [kind ++ 15#4, d1.setWidth 8] 3).dec.exp = 3 := by decide

/-- Also of `PortSelectFrameCompletes` (`F5`). -/
theorem witness_OneDataSystemCommonFrameCompletes :
    ∀ b ∈ [(0xF1 : Byte), 0xF3, 0xF4, 0xF5],
      (opened 0 [b] 2).dec.rs = 0 ∧ Memory.read (opened 0 [b] 2).dec.buf 0 = b
      ∧ (opened 0 [b] 2).dec.pos = 1 ∧ (opened 0 [b] 2).dec.exp = 2 := by decide

theorem witness_SongPositionFrameCompletes :
    ∀ d1 ∈ [(0 : Data7), 127],
      (opened 0 [0xF2, d1.setWidth 8] 3).dec.rs = 0
      ∧ Memory.read (opened 0 [0xF2, d1.setWidth 8] 3).dec.buf 0 = 0xF2
      ∧ Memory.read (opened 0 [0xF2, d1.setWidth 8] 3).dec.buf 1 = d1.setWidth 8
      ∧ (opened 0 [0xF2, d1.setWidth 8] 3).dec.pos = 2
      ∧ (opened 0 [0xF2, d1.setWidth 8] 3).dec.exp = 3 := by decide

/-- Port values at the ends of each clause of R202, with `N_PORTS = 4`. -/
theorem witness_PortSelectFrameCompletes :
    (∀ v ∈ [(0 : Data7), 1, 4, 127], v.toNat = 0 ∨ v.toNat = 127 ∨ v.toNat ≤ (opened 0 [0xF5] 2).cfg.nPorts)
    ∧ (∀ v ∈ [(5 : Data7), 126],
        ¬ (v.toNat = 0 ∨ v.toNat = 127 ∨ v.toNat ≤ (opened 0 [0xF5] 2).cfg.nPorts)) := by decide

theorem witness_AppendBeyondBufferFaults :
    (opened 0 [0xF0, 0x01, 0x02, 0x03] 4).cfg.sysexCap ≤ (opened 0 [0xF0, 0x01, 0x02, 0x03] 4).dec.pos
    ∧ (opened 0 [0xF0, 0x01, 0x02, 0x03] 4).dec.sxOpen = true := by decide

/-- A record that fails each of the four checks in turn. -/
theorem witness_RefusedCommandOnlySetsReject :
    (∀ c ∈ [Command.bare 1 5, { Command.bare 2 8 with port := 5 }, Command.bare 2 8,
        { Command.bare 4 0 with param := 32, port := 1 }],
      (presenting c).inputs = .command c :: [] ∧ c.accept (presenting c).cfg = false)
    ∧ (Command.bare 4 1).accept State.reset.cfg = false := by decide

/-- Also of `RunningStatusAgreementIsKept`'s command: accepted at the ends of the port and controller
ranges, and with `N_PORTS = 1` for any port. -/
theorem witness_AcceptedCommandAnnouncesPortFirst :
    (∀ c ∈ [{ Command.bare 2 8 with port := 1 }, { Command.bare 2 8 with port := 4 },
        { Command.bare 4 0 with param := 31, port := 1 }],
      (presenting c).inputs = .command c :: [] ∧ c.accept (presenting c).cfg = true)
    ∧ { Command.bare 2 8 with port := 31 }.accept State.reset.cfg = true := by decide

/-- The premises of its two clauses, where they meet: one port more or less, port 1 and the last port, and
an unknown route. -/
theorem witness_AcceptedCommandAnnouncesPortFirst_clauses :
    (∀ p ∈ [((-1 : Int), (1 : BitVec 5)), (0, 2), (2, 4), (1, 1)],
      (sending 0x90 p.1).cfg.nPorts ≠ 1 ∧ (sending 0x90 p.1).enc.lastIdx ≠ (p.2.toNat : Int) - 1)
    ∧ (∀ p ∈ [((0 : Int), (1 : BitVec 5)), (3, 4)],
      (sending 0x90 p.1).enc.lastIdx = (p.2.toNat : Int) - 1)
    ∧ State.reset.cfg.nPorts = 1 := by decide

/-- The port premise of the command statements, at both ends of the port range and with one port; and the
premises of the extended commands, a controller number on each side of the bound. -/
theorem witness_CommandOutput :
    (∀ port ∈ [1, 4], small.cfg.nPorts = 1 ∨ (1 ≤ port ∧ port ≤ small.cfg.nPorts))
    ∧ (State.reset.cfg.nPorts = 1 ∨ (1 ≤ 0 ∧ 0 ≤ State.reset.cfg.nPorts))
    ∧ small.cfg.extCc = true ∧ 31 ≤ 31 ∧ 31 < 32 := by decide

/-- Also of `EmittedRecordsAreLegal`, whose step emits. -/
theorem witness_StepKeepsInvariant :
    (∀ c : Config, (State.resetWith c).dec.dstat = 0)
    ∧ { opened 0x90 [0x90, 0x40] 3 with inputs := [.wire 0x7F] }.Inv
    ∧ ∃ t, step { opened 0x90 [0x90, 0x40] 3 with inputs := [.wire 0x7F] } = .next t ∧ t.events ≠ [] :=
  ⟨fun _ => rfl, by decide, _, rfl, by decide⟩

/-- A record of each class. -/
theorem witness_EmittedSelectorsFollowStatus :
    (opened 0x90 [0x90, 0x40] 3).Inv ∧ (opened 0 [0xF1] 2).Inv ∧ (opened 0 [0xF0] 4).Inv
    ∧ (opened 0 [0xF5] 2).Inv
    ∧ completes (.decData 0x7F) (opened 0x90 [0x90, 0x40] 3) (fun t => t.events.map (·.cls) == [.cv])
    ∧ completes (.decData 0x35) (opened 0 [0xF1] 2) (fun t => t.events.map (·.cls) == [.sc])
    ∧ completes .decClock small (fun t => t.events.map (·.cls) == [.rt])
    ∧ completes .decEox (opened 0 [0xF0] 4) (fun t => t.events.map (·.cls) == [.sx])
    ∧ completes (.decData 3) (opened 0 [0xF5] 2) (fun t => t.events.map (·.cls) == [.ps]) :=
  ⟨by decide, by decide, by decide, by decide, by decide, by decide, by decide, by decide, by decide⟩

theorem witness_EveryInputCompletes :
    { opened 0 [0xF0, 0x01, 0x02] 4 with inputs := [.wire 0xF7] }.Inv := by decide

/-- A status byte that sets a bit, a data byte that sets one, and a data byte that sets the other. -/
theorem witness_WireByteSetsAtMostOneStatusBit :
    (∃ t, exec (decodeWire 0x80) (opened 0 [0xF0] 4) = .next t ∧ t.dec.dstat ≠ 0)
    ∧ (∃ t, exec (decodeWire 0x7F) (opened 0 [0xF0, 0x01, 0x02] 4) = .next t ∧ t.dec.dstat ≠ 0)
    ∧ ∃ t, exec (decodeWire 0x05) (opened 0 [0xF5] 2) = .next t ∧ t.dec.dstat ≠ 0 :=
  ⟨⟨_, rfl, by decide⟩, ⟨_, rfl, by decide⟩, _, rfl, by decide⟩

/-- Each agent's bit is set, and kept by an instruction that is neither its clear event nor its reset. -/
theorem witness_StatusBitsAreSticky :
    (∃ t, exec .decEox { small with dec := { small.dec with dstat := 7 } } = .next t ∧ t.dec.dstat = 7
      ∧ Instr.decEox ≠ .ctlDecDstatClear ∧ Instr.decEox ≠ .ctlDecReset)
    ∧ ∃ t, exec (.encClock 1) { small with enc := { small.enc with estat := 1 } } = .next t
      ∧ t.enc.estat = 1 ∧ Instr.encClock 1 ≠ .ctlEncEstatClear ∧ Instr.encClock 1 ≠ .ctlEncReset :=
  ⟨⟨_, rfl, by decide, by decide, by decide⟩, _, rfl, by decide, by decide, by decide⟩

/-- A port changed by a frame, by `IN_ROUTE_RESET` and by `RESET`. -/
theorem witness_InboundPortChangesOnlyBySelection :
    (∃ t, exec (.decData 4) (opened 0 [0xF5] 2) = .next t ∧ t.dec.inPort ≠ 1)
    ∧ (∃ t, exec .ctlDecInRouteReset { small with dec := { small.dec with inPort := 4 } } = .next t
        ∧ t.dec.inPort ≠ 4)
    ∧ ∃ t, exec .ctlDecReset { small with dec := { small.dec with inPort := 4 } } = .next t
        ∧ t.dec.inPort ≠ 4 :=
  ⟨⟨_, rfl, by decide⟩, ⟨_, rfl, by decide⟩, _, rfl, by decide⟩

theorem witness_RouteIsForgottenOnlyByFourEvents :
    ∃ t, exec .ctlEncIdleExpired (sending 0x90 3) = .next t ∧ (sending 0x90 3).enc.lastIdx ≠ -1
      ∧ t.enc.lastIdx = -1 := ⟨_, rfl, by decide, by decide⟩

/-- A byte of each class, at the ends of the classes' ranges. -/
theorem witness_DecoderRunningStatusFollowsStatusBytes :
    (∀ b ∈ [(0xF8 : Byte), 0xFF], isRealTime b) ∧ (∀ b ∈ [(0x00 : Byte), 0x7F], isData b)
    ∧ (∀ b ∈ [(0x80 : Byte), 0xEF], isChannelVoice b)
    ∧ (∀ b ∈ [(0xF0 : Byte), 0xF7], 0xF0 ≤ b.toNat ∧ b.toNat ≤ 0xF7)
    ∧ ∀ b ∈ [(0xF8 : Byte), 0xFF, 0x00, 0x7F, 0x80, 0xEF, 0xF0, 0xF7],
        completes (decodeWire b) (opened 0x90 [0x90] 3) (fun _ => true) = true := by decide

theorem witness_AgentsWriteOnlyTheirOwnState :
    Instr.decClock.agent = .dec ∧ (Instr.encClock 1).agent = .enc
    ∧ (∃ t, exec .decClock small = .next t) ∧ ∃ t, exec (.encClock 1) small = .next t :=
  ⟨rfl, rfl, ⟨_, rfl⟩, _, rfl⟩

theorem witness_StepsOfTheTwoAgentsCommute :
    (Instr.decData 2).agent ≠ (Instr.encNoteOn 0 1 2 4).agent
    ∧ ∃ t u, exec (.decData 2) (opened 0 [0xF5] 2) = .next t
        ∧ exec (.encNoteOn 0 1 2 4) t = .next u := ⟨by decide, _, _, rfl, rfl⟩

/-- Two states that differ above `pos`, and two that differ in `exp` at `pos = 0`. -/
theorem witness_UnreadBufferIsUnobservable :
    ((opened 0x90 [0x90] 3).Inv
      ∧ (opened 0x90 [0x90] 3).dec.alike
          { (opened 0x90 [0x90] 3).dec with buf := [(0, 0x90), (1, 0x40)] })
    ∧ (small.Inv ∧ small.dec.alike { small.dec with exp := 3 })
    ∧ ∃ s', exec (.decData 1) (opened 0x90 [0x90] 3) = .next s' :=
  ⟨by decide, by decide, _, rfl⟩

/-- The longest body that fits a buffer of 4, with real-time bytes around it, and the empty one. -/
theorem witness_SysexFrameRoundTrips :
    ∀ body ∈ [[], [(0xF8 : Byte), 0x00, 0xFF, 0x7F]],
      (∀ b ∈ body, isData b ∨ isRealTime b)
      ∧ (body.filter (fun b => decide (isData b))).length + 2 ≤ small.cfg.sysexCap := by decide

/-- A decoder within running status, and one at reset; the ends of PitchBend's range. -/
theorem witness_ChannelVoiceCommandRoundTrips :
    ((sending 0x90 0).cfg = (opened 0x90 [0x90] 3).cfg ∧ (opened 0x90 [0x90] 3).Inv
      ∧ (opened 0x90 [0x90] 3).dec.rs = (sending 0x90 0).enc.rsOut
      ∧ (opened 0x90 [0x90] 3).dec.pos = 1 ∧ (opened 0x90 [0x90] 3).dec.rs ≠ 0
      ∧ 1 ≤ 4 ∧ 4 ≤ (sending 0x90 0).cfg.nPorts)
    ∧ (small.Inv ∧ small.dec.rs = small.enc.rsOut ∧ small.dec.pos = 0)
    ∧ (-8192 : Int) ≤ -8192 ∧ (8191 : Int) ≤ 8191 :=
  ⟨⟨by decide, by decide, by decide, by decide, by decide, by decide, by decide⟩, by decide, by decide, by decide⟩

theorem witness_RunningStatusAgreementIsKept :
    (opened 0x90 [0x90] 3).cfg = (sending 0x90 0).cfg ∧ (opened 0x90 [0x90] 3).Inv
    ∧ runningStatusAgrees (sending 0x90 0).enc (opened 0x90 [0x90] 3).dec
    ∧ { Command.bare 0 9 with port := 4 }.accept (sending 0x90 0).cfg = true
    ∧ ∃ t, step { sending 0x90 0 with inputs := [.command { Command.bare 0 9 with port := 4 }] }
        = .next t := ⟨by decide, by decide, by decide, by decide, _, rfl⟩

end Sys2Proof.Tests
end

section
/-! PROOFS. The step on an input that decodes and on one that does not, and the refusal of a command record
(spec/30_encoding.md R86, spec/42_encoder.md R161 and R189). -/

namespace Sys2Proof.Machine

/-- With an input that decodes, a step takes it and runs its instruction (R21). -/
theorem step_of_decode_ok {s : State} {input : Input} {rest : List Input} {i : Instr}
    (hin : s.inputs = input :: rest) (hd : decode input = .ok i) :
    step s = exec i { s with inputs := rest } := by
  simp only [step, hin, hd]

/-- With a command whose selector R83 does not list, a step takes it and rejects it (R86). -/
theorem step_of_unlistedSelector {s : State} {input : Input} {rest : List Input} {sel : BitVec 7}
    (hin : s.inputs = input :: rest) (hd : decode input = .error (.unlistedSelector sel)) :
    step s = .next (rejected { s with inputs := rest }) := by
  simp only [step, hin, hd, rejectCommand_spec]

/-- A listed command that is not accepted fails one of the checks made after decoding (R161). -/
theorem checks_false_of_not_accept {cfg : Config} {c : Command}
    (hsel : acceptedSelectors.contains c.sel = true) (hacc : c.accept cfg = false) :
    (extraChecks cfg c && portAccepted cfg c.port.toNat) = false := by
  rwa [Command.accept_eq, hsel, Bool.true_and] at hacc

/-- Settles O27. The selector is refused at decode, every other check by the command's own operation. -/
theorem refusedCommandOnlySetsReject : Obligations.RefusedCommandOnlySetsReject := by
  intro s c rest hin hacc
  show step s = .next (rejected { s with inputs := rest })
  rcases decodeCommand_cases c with ⟨_, hd⟩ | ⟨hsel, i, body, hd, hexec, _⟩
  · exact step_of_unlistedSelector hin hd
  · calc step s
        = exec i { s with inputs := rest } := step_of_decode_ok hin hd
      _ = .next (runCommand (extraChecks s.cfg c) c.port.toNat body { s with inputs := rest }) :=
          hexec _
      _ = .next (rejected { s with inputs := rest }) :=
          congrArg _ (runCommand_refused body (checks_false_of_not_accept hsel hacc))

end Sys2Proof.Machine
end

section
/-! PROOFS. DEC's status bytes: the channel-voice bytes open a frame (spec/40_decoder.md section 2), the
real-time bytes only emit (section 3), `F6` emits at once and leaves nothing open (section 4). -/

namespace Sys2Proof.Machine

/-! ### Channel-voice status bytes -/

/-- Settles O9. All seven instructions are `CvStatus` with their own kind, whose whole next state
`cvStatus_spec` gives. -/
theorem channelVoiceStatusOpensFrame : Obligations.ChannelVoiceStatusOpensFrame := by
  intro s chan p hp
  have hexec : exec (p.2 chan) s = .next (cvStatus p.1 chan s) := by
    simp only [List.mem_cons, List.not_mem_nil, or_false] at hp
    rcases hp with rfl | rfl | rfl | rfl | rfl | rfl | rfl <;> rfl
  rw [cvStatus_spec] at hexec
  exact ⟨_, hexec, rfl, Memory.read_write_same _ _ _, fun _ ha => Memory.read_write_ne _ _ ha,
    rfl, rfl, rfl, rfl, rfl⟩

/-! ### Tune request -/

/-- No SysEx frame is open where no frame is (R24, R26). -/
theorem DecState.sxOpen_of_pos_zero {d : DecState} (hpos : d.pos = 0) : d.sxOpen = false := by
  simp [DecState.sxOpen, hpos]

/-- With no open frame and no running status a data byte is discarded (R126). -/
theorem exec_decData_discarded {s : State} (v : Data7) (hrs : s.dec.rs = 0x00#8)
    (hpos : s.dec.pos = 0) : exec (.decData v) s = .next s :=
  if_pos ⟨hrs, DecState.sxOpen_of_pos_zero hpos, hpos⟩

/-- The record of a lone `F6` (R125, R129): no data bytes, `val` 0. -/
theorem scEvent_tuneRequest (port : Nat) :
    scEvent [0xF6#8] port =
      { cls := .sc, kind := 6#4, status := 0xF6#8, chan := 0#4, d1 := 0#7, d2 := 0#7
        hasD2 := false, val := 0, raw := [0xF6#8], eox := false, port := port } := rfl

/-- Settles O11. The state after `F6` has `rs` and `pos` 0, so it discards a data byte. -/
theorem tuneRequestEmitsAtOnce : Obligations.TuneRequestEmitsAtOnce := by
  refine ⟨rfl, fun s => ?_⟩
  have hexec : exec .decTuneRequest s = .next (scStatus 0xF6#8 s) := rfl
  rw [scStatus_tuneRequest_spec, scEvent_tuneRequest] at hexec
  exact ⟨_, hexec, rfl, fun v => exec_decData_discarded v rfl rfl⟩

/-! ### Real-time bytes -/

/-- Settles O16. Each byte is a real-time byte, so it runs `RealTime` (`exec_realTime`); its kind is its
low nibble. -/
theorem realTimeByteOnlyEmits : Obligations.RealTimeByteOnlyEmits := by
  intro s p hp
  have hbyte : decodeWire p.1 = p.2.2 ∧ isRealTime p.1 ∧ lowNibble p.1 = p.2.1 := by
    revert p; decide
  obtain ⟨hdecode, hrt, hkind⟩ := hbyte
  refine ⟨congrArg Except.ok hdecode, ?_⟩
  rw [← hdecode, ← hkind, exec_realTime hrt, realTime_spec, rtEvent]

end Sys2Proof.Machine
end

section
/-! PROOFS. The SysEx frame (spec/41_sysex.md): `F0` opens it, data bytes fill or truncate it, `F7` ends it,
and every other status byte but the real-time ones abandons it. -/

namespace Sys2Proof.Machine

/-! ### Opening a frame -/

/-- Settles O12. `sysexStart_spec` gives the whole next state: a frame of one byte, `F0`. -/
theorem sysexStartOpensFrame : Obligations.SysexStartOpensFrame := by
  refine ⟨rfl, fun s => ?_⟩
  have hexec : exec .decSysexStart s = .next (sysexStart s) := rfl
  rw [sysexStart_spec] at hexec
  have hhead := Memory.read_write_same s.dec.buf 0 0xF0#8
  exact ⟨_, hexec, (DecState.sxOpen_iff _).2 ⟨Nat.le_refl 1, hhead⟩, rfl, hhead,
    fun _ ha => Memory.read_write_ne s.dec.buf 0xF0#8 ha, rfl, rfl, rfl, rfl, rfl⟩

/-! ### Abandoning the frame -/

/-- `s` with a one-byte frame newly opened by the status byte `b` (R102, R119, R140), the `SX_ABORT` of
R145 included. -/
def frameOpened (rs b : Byte) (length : Nat) (s : State) : State :=
  { s with dec :=
    { rs := rs, buf := Memory.write s.dec.buf 0 b, pos := 1, exp := length, inPort := s.dec.inPort
      dstat := if s.dec.sxOpen then s.dec.dstat ||| 0x02#8 else s.dec.dstat } }

/-- `s` with its open SysEx frame gone and `SX_ABORT` set (R145). -/
def sysexAbandoned (s : State) : State :=
  { s with dec := { s.dec with pos := 0, dstat := s.dec.dstat ||| 0x02#8 } }

/-- Everything a status byte `80`..`F6` can do: `F6` is the tune request, every other one opens a frame,
whose running status and length come from the byte and the configuration. -/
theorem exec_status_cases {b : Byte} (hlo : 0x80 ≤ b.toNat) (hhi : b.toNat < 0xF8)
    (hne : b ≠ 0xF7#8) :
    (∃ (rs : Byte) (length : Config → Nat),
      ∀ s, exec (decodeWire b) s = .next (frameOpened rs b (length s.cfg) s))
    ∨ (b = 0xF6#8 ∧ ∀ s, exec (decodeWire b) s = .next (scStatus 0xF6#8 s)) := by
  rcases exec_wire b with ⟨hrt, _⟩ | ⟨_, e⟩ | ⟨rfl, e⟩ | ⟨_, _, e⟩ | ⟨h7, _⟩ | ⟨hdata, _⟩
  · exact absurd hrt (Nat.not_le.2 hhi)
  · refine .inl ⟨b, fun _ => cvLength (highNibble b), fun s => ?_⟩
    rw [e, cvStatus_spec, byteOf_nibbles, frameOpened]
  · refine .inl ⟨0x00#8, Config.sysexCap, fun s => ?_⟩
    rw [e, sysexStart_spec, frameOpened]
  · by_cases h6 : b = 0xF6#8
    · exact .inr ⟨h6, fun s => by rw [e, h6]⟩
    · refine .inl ⟨0x00#8, fun _ => scLength b, fun s => ?_⟩
      rw [e, scStatus_spec h6, frameOpened]
  · exact absurd h7 hne
  · exact absurd hdata (Nat.not_lt.2 hlo)

/-- The new frame overwrites all that abandoning the open one changes, `SX_ABORT` apart. -/
theorem frameOpened_abandoned {s : State} (hopen : s.dec.sxOpen = true) (rs b : Byte) (length : Nat) :
    frameOpened rs b length s = frameOpened rs b length (sysexAbandoned s) := by
  simp [frameOpened, sysexAbandoned, hopen, DecState.sxOpen_of_pos_zero]

/-- `F6` drops the frame itself, so only `SX_ABORT` tells whether it was abandoned before. -/
theorem scStatus_tuneRequest_abandoned {s : State} (hopen : s.dec.sxOpen = true) :
    scStatus 0xF6#8 s = scStatus 0xF6#8 (sysexAbandoned s) := by
  simp [scStatus_tuneRequest_spec, sysexAbandoned, hopen, DecState.sxOpen_of_pos_zero]

/-- Settles O13. The byte opens a frame or is `F6` (`exec_status_cases`); either way it forgets the open
frame but for `SX_ABORT`. -/
theorem statusByteAbortsOpenSysex : Obligations.StatusByteAbortsOpenSysex := by
  intro s b hopen hlo hhi hne
  rcases exec_status_cases hlo hhi hne with ⟨rs, length, e⟩ | ⟨h6, e⟩
  · have habandon : exec (decodeWire b) s = exec (decodeWire b) (sysexAbandoned s) := by
      rw [e, e, frameOpened_abandoned hopen]; rfl
    exact ⟨habandon, _, e s, if_pos hopen, fun _ => rfl⟩
  · have habandon : exec (decodeWire b) s = exec (decodeWire b) (sysexAbandoned s) := by
      rw [e, e, scStatus_tuneRequest_abandoned hopen]
    have hnext := e s
    rw [scStatus_tuneRequest_spec] at hnext
    exact ⟨habandon, _, hnext, if_pos hopen, fun h => absurd h6 h⟩

/-! ### Data bytes -/

/-- Settles O19. Of all a data byte can do (`dataByte_cases`), two cases have an open SysEx frame with room:
one that stays open, and one that the byte fills. -/
theorem sysexDataIsStoredOrTruncates : Obligations.SysexDataIsStoredOrTruncates := by
  intro s v hopen hroom
  have hread := Memory.read_write_same s.dec.buf s.dec.pos (v.setWidth 8)
  have hframe : ∀ a, a ≠ s.dec.pos →
      Memory.read (Memory.write s.dec.buf s.dec.pos (v.setWidth 8)) a = Memory.read s.dec.buf a :=
    fun _ ha => Memory.read_write_ne _ _ ha
  rcases dataByte_cases (v.setWidth 8) s with ⟨_, hclosed, _⟩ | ⟨_, hmore, e⟩ | ⟨_, hfull, e⟩ |
    ⟨hclosed, _⟩ | ⟨hclosed, _⟩ | ⟨hbeyond, _⟩
  · simp [hopen] at hclosed
  · refine ⟨_, e, hread, hframe, ?_, rfl⟩
    rw [if_neg (Nat.ne_of_lt hmore)]
    exact ⟨rfl, rfl⟩
  · refine ⟨_, e, hread, hframe, ?_, rfl⟩
    rw [if_pos hfull]
    exact ⟨rfl, rfl⟩
  · simp [hopen] at hclosed
  · simp [hopen] at hclosed
  · exact absurd hroom (Nat.not_lt.2 hbeyond)

/-! ### The end of the frame -/

/-- Settles O14. `eox_open` gives the whole next state. -/
theorem endOfSysexEmitsFrame : Obligations.EndOfSysexEmitsFrame := by
  refine ⟨rfl, fun s hopen hroom => ?_⟩
  have hexec : exec .decEox s = eox s := rfl
  rw [eox_open hopen hroom] at hexec
  exact ⟨_, hexec, rfl, Memory.read_write_same s.dec.buf s.dec.pos 0xF7#8,
    fun _ ha => Memory.read_write_ne s.dec.buf 0xF7#8 ha, rfl, rfl⟩

/-- Settles O15. `F7` runs `Eox`, which then only closes the frame (`eox_closed`). -/
theorem strayEndOfSysexClearsRunningStatus : Obligations.StrayEndOfSysexClearsRunningStatus :=
  ⟨rfl, fun _ hclosed => eox_closed hclosed⟩

end Sys2Proof.Machine
end

section
/-! PROOFS. What an accepted command of ENC puts out (spec/42_encoder.md sections 2 to 6): the four output
operations after the port announcement, the data bytes in plain arithmetic, then each command. -/

namespace Sys2Proof.Machine

/-! ### The output operations of an accepted command -/

section Accepted

variable {s : State} {port : Nat} (hport : s.cfg.nPorts = 1 ∨ (1 ≤ port ∧ port ≤ s.cfg.nPorts))
include hport

/-- A channel-voice command omits its status byte when that is the running status the port announcement
leaves (R162). -/
theorem runCommand_cvOut (kind chan : Nibble) (body : List Byte) :
    runCommand true port (cvOut kind chan body) s =
      sent s port ((if kind ++ chan = routeRs s port then [] else [kind ++ chan]) ++ body)
        (kind ++ chan) := by
  rw [runCommand_accepted _ rfl ((portAccepted_iff _ _).2 hport)]
  exact cvOut_sent kind chan body s port

/-- A system-common command and a SysEx command put out their bytes and clear `rs_out` (R170, R183). -/
theorem runCommand_plainOut (bytes : List Byte) :
    runCommand true port (plainOut bytes) s = sent s port bytes 0x00#8 := by
  rw [runCommand_accepted _ rfl ((portAccepted_iff _ _).2 hport), plainOut_sent]

/-- A real-time command keeps the running status the port announcement leaves (R175). -/
theorem runCommand_rtOut (kind : Nibble) :
    runCommand true port (rtOut kind) s =
      sent s port [0xF0#8 ||| kind.setWidth 8] (routeRs s port) := by
  rw [runCommand_accepted _ rfl ((portAccepted_iff _ _).2 hport), rtOut_sent]

/-- An extended controller command always puts out its status byte (R184). -/
theorem runCommand_x14Out {extra : Bool} (hextra : extra = true) (chan : Nibble) (body : List Byte) :
    runCommand extra port (x14Out chan body) s =
      sent s port ((0xB#4 ++ chan) :: body) (0xB#4 ++ chan) := by
  rw [runCommand_accepted _ hextra ((portAccepted_iff _ _).2 hport), x14Out_sent, x14Status_eq]
  rfl

end Accepted

/-! ### The data bytes in plain arithmetic -/

theorem biasedPair_eq (val : Int) :
    biasedPair val = [BitVec.ofInt 8 ((val + 8192) % 16384 % 128),
      BitVec.ofInt 8 ((val + 8192) % 16384 / 128)] := by
  rw [biasedPair, bias14, lsb7_wrap, msb7_wrap]

theorem cc14Body_eq (param : Nat) (val : Int) :
    cc14Body param val = [BitVec.ofNat 8 param, BitVec.ofInt 8 (val % 16384 / 128),
      BitVec.ofNat 8 (param + 32), BitVec.ofInt 8 (val % 16384 % 128)] := by
  rw [cc14Body, msb7_wrap, lsb7_wrap]

/-- The parameter is a natural number, so its bytes are written with `BitVec.ofNat`, the value's with
`BitVec.ofInt`. -/
theorem paramBody_eq (cMsb cLsb : Byte) (param : Nat) (val : Int) :
    paramBody cMsb cLsb param val =
      [cMsb, BitVec.ofNat 8 (param % 16384 / 128), cLsb, BitVec.ofNat 8 (param % 16384 % 128),
       0x06#8, BitVec.ofInt 8 (val % 16384 / 128), 0x26#8, BitVec.ofInt 8 (val % 16384 % 128)] := by
  have hparam : param % 16384 < 16384 := Nat.mod_lt _ (by decide)
  rw [paramBody, msb7_wrap val, lsb7_wrap val, wrap14_nat, msb7_nat hparam, lsb7_nat]

/-- A real-time byte is `F0` with its own low nibble (R71, R175). -/
theorem or_lowNibble_of_isRealTime {b : Byte} (h : isRealTime b) :
    0xF0#8 ||| (lowNibble b).setWidth 8 = b := by
  revert b; decide

/-! ### Channel-voice commands -/

/-- Settles O29. The four commands are `CvOut` with their own kind and the same two data bytes. -/
theorem twoDataChannelVoiceCommandOutput : Obligations.TwoDataChannelVoiceCommandOutput := by
  intro s chan d1 d2 port hport p hp
  have hexec : exec (p.2 chan d1 d2 port) s =
      .next (runCommand true port (cvOut p.1 chan [d1 &&& 0x7F#8, d2 &&& 0x7F#8]) s) := by
    simp only [List.mem_cons, List.not_mem_nil, or_false] at hp
    rcases hp with rfl | rfl | rfl | rfl <;> rfl
  rw [hexec, runCommand_cvOut hport]

/-- Settles O30. Both commands are `CvOut` with their own kind and one data byte. -/
theorem oneDataChannelVoiceCommandOutput : Obligations.OneDataChannelVoiceCommandOutput := by
  intro s chan d1 port hport p hp
  have hexec : exec (p.2 chan d1 port) s =
      .next (runCommand true port (cvOut p.1 chan [d1 &&& 0x7F#8]) s) := by
    simp only [List.mem_cons, List.not_mem_nil, or_false] at hp
    rcases hp with rfl | rfl <;> rfl
  rw [hexec, runCommand_cvOut hport]

/-- Settles O31. -/
theorem pitchBendCommandOutput : Obligations.PitchBendCommandOutput := by
  intro s chan val port hport
  have hexec : exec (.encPitchBend chan val port) s =
      .next (runCommand true port (cvOut 0xE#4 chan (biasedPair val)) s) := rfl
  rw [hexec, runCommand_cvOut hport, biasedPair_eq]

/-! ### System-common and SysEx commands -/

/-- Settles O32. Both commands are `ScOut` with their own status byte. -/
theorem oneDataSystemCommonCommandOutput : Obligations.OneDataSystemCommonCommandOutput := by
  intro s val port hport p hp
  have hexec : exec (p.2 val port) s =
      .next (runCommand true port (plainOut [p.1, lowData val]) s) := by
    simp only [List.mem_cons, List.not_mem_nil, or_false] at hp
    rcases hp with rfl | rfl <;> rfl
  rw [hexec, runCommand_plainOut hport, lowData_eq]

/-- Settles O33. -/
theorem songPositionCommandOutput : Obligations.SongPositionCommandOutput := by
  intro s val port hport
  have hexec : exec (.encSongPos val port) s =
      .next (runCommand true port (plainOut (0xF2#8 :: biasedPair val)) s) := rfl
  rw [hexec, runCommand_plainOut hport, biasedPair_eq]

/-- Settles O34. Both commands put out a list of bytes they do not inspect. -/
theorem tuneRequestAndSysexCommandOutput : Obligations.TuneRequestAndSysexCommandOutput :=
  fun _ payload _ hport =>
    ⟨congrArg _ (runCommand_plainOut hport [0xF6#8]), congrArg _ (runCommand_plainOut hport payload)⟩

/-! ### Real-time commands -/

/-- Settles O35. The seven commands are `RtOut` with the low nibble of their byte. -/
theorem realTimeCommandOutput : Obligations.RealTimeCommandOutput := by
  intro s port hport p hp
  have hrt : isRealTime p.1 := by revert p; decide
  have hexec : exec (p.2 port) s =
      .next (runCommand true port (rtOut (lowNibble p.1)) s) := by
    simp only [List.mem_cons, List.not_mem_nil, or_false] at hp
    rcases hp with rfl | rfl | rfl | rfl | rfl | rfl | rfl <;> rfl
  rw [hexec, runCommand_rtOut hport, or_lowNibble_of_isRealTime hrt]

/-! ### Extended controller commands -/

/-- Settles O36. With `EXT_CC` the bound on the controller number decides alone (R161). -/
theorem controller14CommandOutput : Obligations.Controller14CommandOutput := by
  intro s chan param val port hport hext
  have hexec : exec (.encCc14 chan param val port) s = .next (runCommand
      (s.cfg.extCc && decide (param ≤ 31)) port (x14Out chan (cc14Body param val)) s) := rfl
  refine ⟨fun hle => ?_, fun hgt => ?_⟩
  · rw [hexec, runCommand_x14Out hport (by simp [hext, hle]), cc14Body_eq]
  · rw [hexec, runCommand_refused _ (by simp [hgt])]

/-- Settles O37. Both commands are `X14Out` with their own pair of parameter controllers. -/
theorem parameterNumberCommandOutput : Obligations.ParameterNumberCommandOutput := by
  intro s chan param val port hport hext p hp
  have hexec : exec (p.2.2 chan param val port) s =
      .next (runCommand s.cfg.extCc port (x14Out chan (paramBody p.1 p.2.1 param val)) s) := by
    simp only [List.mem_cons, List.not_mem_nil, or_false] at hp
    rcases hp with rfl | rfl <;> rfl
  rw [hexec, runCommand_x14Out hport hext, paramBody_eq]

end Sys2Proof.Machine
end

section
/-! PROOFS. The inbound half of the port router (spec/43_port_router.md section 2): the data byte that
completes a port-select frame, and the steps that leave `in_port` alone. -/

namespace Sys2Proof.Machine

/-! ### A complete port-select frame -/

/-- The port a data value selects, by whether it names one (R202, R203). -/
theorem resolvePort_data_eq_some_or_none (cfg : Config) (v : Data7) :
    resolvePort cfg (v.setWidth 8) =
      if v.toNat = 0 ∨ v.toNat = 127 ∨ v.toNat ≤ cfg.nPorts then
        some (if v.toNat = 0 ∨ v.toNat = 127 then 1 else v.toNat)
      else none := by
  rw [resolvePort_data]
  by_cases hbroadcast : v.toNat = 0 ∨ v.toNat = 127
  · rw [if_pos hbroadcast, if_pos (by tauto), if_pos hbroadcast]
  · by_cases hexists : v.toNat ≤ cfg.nPorts
    · rw [if_neg hbroadcast, if_pos hexists, if_pos (by tauto), if_neg hbroadcast]
    · rw [if_neg hbroadcast, if_neg hexists, if_neg (by tauto)]

/-- The record of a port selection by a data byte (R201): its `d1` is the byte's value. -/
theorem psEvent_data (v : Data7) (port : Nat) :
    psEvent (v.setWidth 8) port =
      { cls := .ps, kind := 5#4, status := 0xF5#8, chan := 0#4, d1 := v, d2 := 0#7
        hasD2 := false, val := 0, raw := [0xF5#8, v.setWidth 8], eox := false, port := port } := by
  simp [psEvent]

/-- `s` once the byte `pp` has completed its port-select frame (R201, R203): the port selected with its
record, or `PORT_RANGE`. -/
def portSelected (pp : Byte) (s : State) : Option Nat → State
  | some port =>
    { s with
      dec := { s.dec with pos := 0, inPort := port, buf := Memory.write s.dec.buf 1 pp }
      events := s.events ++ [psEvent pp port] }
  | none =>
    { s with dec := { s.dec with
        pos := 0, dstat := s.dec.dstat ||| 0x04#8, buf := Memory.write s.dec.buf 1 pp } }

/-- The byte after `F5` completes the frame, and what it names decides the rest (R127, R201). -/
theorem dataByte_portSelect {s : State} (pp : Byte) (hrs : s.dec.rs = 0x00#8)
    (hhead : Memory.read s.dec.buf 0 = 0xF5#8) (hpos : s.dec.pos = 1) (hexp : s.dec.exp = 2) :
    dataByte pp s = .next (portSelected pp s (resolvePort s.cfg pp)) := by
  obtain ⟨hdone, hhead', hframe⟩ :=
    dataByte_completes (b := pp) (by simp [hhead]) hpos.ge (by omega) (by omega)
  rw [hhead] at hhead'
  have hpp : (Memory.readFrame (appended pp s).dec.buf (appended pp s).dec.exp).getD 1 0#8 = pp := by
    rw [hframe, hpos]; rfl
  rw [hdone]
  rcases complete_cases (appended pp s) with ⟨hcv, _⟩ | ⟨port, _, hport, e⟩ | ⟨_, hnone, e⟩ |
    ⟨_, hne, _⟩
  · rw [hhead'] at hcv; exact absurd hcv (by decide)
  · rw [hpp] at hport e
    have hport' : resolvePort s.cfg pp = some port := hport
    rw [e, hport']
    simp [portSelected, appended, hrs, hpos]
  · rw [hpp] at hnone
    have hnone' : resolvePort s.cfg pp = none := hnone
    rw [e, hnone']
    simp [portSelected, appended, hrs, hpos]
  · exact absurd hhead' hne

/-- Whatever the byte names, it is stored at index 1 and only DEC and the events change. -/
theorem portSelected_frame (pp : Byte) (s : State) (target : Option Nat) :
    (portSelected pp s target).dec.buf = Memory.write s.dec.buf 1 pp
    ∧ portSelected pp s target = { s with
        dec := (portSelected pp s target).dec, events := (portSelected pp s target).events } := by
  cases target <;> exact ⟨rfl, rfl⟩

/-- Settles O25. `resolvePort_data_eq_some_or_none` says which port a value names, `portSelected` what
then happens. -/
theorem portSelectFrameCompletes : Obligations.PortSelectFrameCompletes := by
  intro s v hrs hhead hpos hexp
  have hexec : exec (.decData v) s = dataByte (v.setWidth 8) s := rfl
  rw [dataByte_portSelect _ hrs hhead hpos hexp] at hexec
  obtain ⟨hbuf, hframe⟩ := portSelected_frame (v.setWidth 8) s (resolvePort s.cfg (v.setWidth 8))
  refine ⟨_, hexec, ?_, fun a ha => ?_, ?_, hframe⟩
  · rw [hbuf, Memory.read_write_same]
  · rw [hbuf, Memory.read_write_ne _ _ ha]
  · rw [resolvePort_data_eq_some_or_none]
    by_cases hnamed : v.toNat = 0 ∨ v.toNat = 127 ∨ v.toNat ≤ s.cfg.nPorts
    · simp only [if_pos hnamed, portSelected, psEvent_data]
      exact ⟨_, rfl, rfl, rfl⟩
    · simp only [if_neg hnamed, portSelected, and_self]

/-! ### What changes `in_port` -/

/-- A step from `s` to `t` that emits one record, of a port selection, for the port it leaves (R201). -/
def selectsPort (s t : State) : Prop :=
  ∃ e, t.events = s.events ++ [e] ∧ e.cls = .ps ∧ e.port = t.dec.inPort

/-- A complete frame changes `in_port` only if it is a port-select frame whose value names a port. -/
theorem complete_inPort (s : State) :
    (complete s).dec.inPort = s.dec.inPort
    ∨ (Memory.read s.dec.buf 0 = 0xF5#8 ∧ selectsPort s (complete s)) := by
  rcases complete_cases s with ⟨_, e⟩ | ⟨port, hhead, _, e⟩ | ⟨_, _, e⟩ | ⟨_, _, e⟩
  · exact .inl (by rw [e])
  · exact .inr ⟨hhead, by rw [e]; exact ⟨_, rfl, rfl, rfl⟩⟩
  · exact .inl (by rw [e])
  · exact .inl (by rw [e])

/-- A data byte is no status byte, so a frame that `F5` heads after it was headed by `F5` before. -/
theorem read_head_of_appended_portSelect {s : State} {b : Byte} (hdata : isData b)
    (h : Memory.read (appended b s).dec.buf 0 = 0xF5#8) : Memory.read s.dec.buf 0 = 0xF5#8 := by
  have hread : Memory.read (Memory.write s.dec.buf s.dec.pos b) 0 = 0xF5#8 := h
  by_cases hpos : s.dec.pos = 0
  · rw [hpos, Memory.read_write_same] at hread
    exact absurd hdata (by rw [hread]; decide)
  · rwa [Memory.read_write_ne _ _ (Ne.symm hpos)] at hread

/-- A data byte changes `in_port` only by completing a port-select frame. -/
theorem dataByte_inPort {s t : State} {b : Byte} (hdata : isData b) (h : dataByte b s = .next t) :
    t.dec.inPort = s.dec.inPort ∨ (Memory.read s.dec.buf 0 = 0xF5#8 ∧ selectsPort s t) := by
  rcases dataByte_cases b s with ⟨_, _, _, e⟩ | ⟨_, _, e⟩ | ⟨_, _, e⟩ | ⟨_, _, _, _, e⟩ |
    ⟨_, _, _, _, e⟩ | ⟨_, e⟩ <;> rw [e] at h <;> cases h
  iterate 4 exact .inl rfl
  exact (complete_inPort (appended b s)).imp_right fun ⟨hhead, hselects⟩ =>
    ⟨read_head_of_appended_portSelect hdata hhead, hselects⟩

/-- A status byte keeps `in_port` (R205): only complete frames select a port. -/
theorem status_keeps_inPort {s t : State} {b : Byte} (hstatus : ¬ isData b)
    (h : exec (decodeWire b) s = .next t) : t.dec.inPort = s.dec.inPort := by
  rcases exec_wire b with ⟨_, e⟩ | ⟨_, e⟩ | ⟨_, e⟩ | ⟨_, _, e⟩ | ⟨_, e⟩ | ⟨hdata, _⟩
  · rw [e, realTime_spec] at h; cases h; rfl
  · rw [e, cvStatus_spec] at h; cases h; rfl
  · rw [e, sysexStart_spec] at h; cases h; rfl
  · by_cases h6 : b = 0xF6#8
    · rw [e, h6, scStatus_tuneRequest_spec] at h; cases h; rfl
    · rw [e, scStatus_spec h6] at h; cases h; rfl
  · rcases eox_cases s with ⟨_, _, e'⟩ | ⟨_, _, e'⟩ | ⟨_, e'⟩ <;>
      rw [e, e'] at h <;> cases h <;> rfl
  · exact absurd hdata hstatus

/-- A command of ENC, accepted or refused, keeps all of DEC (R20). -/
theorem command_keeps_dec {i : Instr} {c : Command} {s t : State} (hi : encode i = .command c)
    (h : exec i s = .next t) : t.dec = s.dec := by
  rcases exec_command hi s with e | ⟨_, _, _, _, _, e⟩ <;> rw [e] at h <;> cases h <;> rfl

/-- Settles O51. `instr_cases` names the kinds of input; of the wire bytes only a data byte can select a
port (`dataByte_inPort`), and of the control events only two write `in_port`. -/
theorem inboundPortChangesOnlyBySelection : Obligations.InboundPortChangesOnlyBySelection := by
  intro i s t h hne
  rcases instr_cases i with ⟨b, rfl, _⟩ | ⟨c, hc⟩ | hcontrol
  · by_cases hdata : isData b
    · have hdecode : decodeWire b = .decData (b.setWidth 7) := by clear h; revert b; decide
      rw [exec_data hdata] at h
      obtain ⟨hhead, e, hevents, hcls, hport⟩ := (dataByte_inPort hdata h).resolve_left hne
      exact .inr (.inr ⟨_, e, hdecode, hhead, hevents, hcls, hport⟩)
    · exact absurd (status_keeps_inPort hdata h) hne
  · exact absurd (congrArg DecState.inPort (command_keeps_dec hc h)) hne
  · simp only [List.mem_cons, List.not_mem_nil, or_false] at hcontrol
    rcases hcontrol with rfl | rfl | rfl | rfl | rfl | rfl | rfl | rfl | rfl | rfl | rfl
    · exact .inl rfl
    · cases h; exact absurd rfl hne
    · exact .inr (.inl rfl)
    all_goals cases h; exact absurd rfl hne

end Sys2Proof.Machine
end

section
/-! PROOFS. The control events of DEC and of ENC (spec/44_control.md): what each writes, and that it writes
nothing else. Each event's meaning is one update of one agent's registers, or one returned value. -/

namespace Sys2Proof.Machine

/-! ### Events of DEC -/

/-- A reset buffer holds `0x00` in every element (R220, R260). -/
@[simp] theorem DecState.read_reset_buf (a : Nat) : Memory.read DecState.reset.buf a = 0x00#8 :=
  Memory.read_nil a

/-- `RESET` replaces DEC's registers by their reset values, whatever frame was open (R220). -/
theorem exec_ctlDecReset (s : State) : exec .ctlDecReset s = .next (s.setDec DecState.reset) := rfl

/-- Settles O38. The next state is `s.setDec DecState.reset`, so DEC's registers are those of
`DecState.reset` and the rest of the state is that of `s`. -/
theorem decoderResetEvent : Obligations.DecoderResetEvent := fun s =>
  ⟨_, exec_ctlDecReset s, DecState.read_reset_buf, rfl, rfl⟩

/-- Settles O40. `RX_ERROR` is `closeFrame`, which keeps what the buffer and `exp` hold;
`DSTAT_CLEAR` is `clearStatus`; `IN_ROUTE_RESET` writes `in_port` itself. -/
theorem decoderErrorAndClearEvents : Obligations.DecoderErrorAndClearEvents := by
  intro s
  have hclose : s.dec.closeFrame = { s.dec with rs := 0x00#8, pos := 0 } := rfl
  have hclear : s.dec.clearStatus = { s.dec with dstat := 0x00#8 } := rfl
  rw [← hclose, ← hclear]
  exact ⟨rfl, rfl, rfl⟩

/-! ### Events of ENC -/

/-- Settles O39. `RESET` writes all three of ENC's registers, so nothing of the old ones is left. -/
theorem encoderResetEvent : Obligations.EncoderResetEvent := by
  intro s
  show exec .ctlEncReset s = .next (s.setEnc EncState.reset)
  rfl

/-- Settles O41. `ESTAT_CLEAR` is `clearStatus`; the other three write the route, and `WRITE_ERROR` the
running status with it. -/
theorem encoderErrorAndClearEvents : Obligations.EncoderErrorAndClearEvents := by
  intro s
  have hclear : s.enc.clearStatus = { s.enc with estat := 0x00#8 } := rfl
  rw [← hclear]
  exact ⟨rfl, rfl, rfl, rfl⟩

/-! ### `STATUS_READ` of either agent -/

/-- Settles O42. A read returns the register through `returnDec` or `returnEnc`, which write no
register. -/
theorem statusReadReturnsRegister : Obligations.StatusReadReturnsRegister := by
  intro s
  constructor
  · show exec .ctlDecStatusRead s = .next (s.returnDec s.dec.dstat)
    rfl
  · show exec .ctlEncStatusRead s = .next (s.returnEnc s.enc.estat)
    rfl

end Sys2Proof.Machine
end

section
/-! PROOFS. The state after reset (spec/70_reset_and_hazards.md R260): whatever the configuration, both
agents start with the registers that their own `RESET` events give them. -/

namespace Sys2Proof.Machine

/-! ### The agents of a reset state -/

@[simp] theorem State.resetWith_dec (c : Config) : (State.resetWith c).dec = DecState.reset := rfl
@[simp] theorem State.resetWith_enc (c : Config) : (State.resetWith c).enc = EncState.reset := rfl

/-- DEC's registers at reset, the buffer apart (R260); `DecState.read_reset_buf` gives the buffer. -/
theorem DecState.reset_registers :
    DecState.reset.rs = 0x00#8 ∧ DecState.reset.pos = 0 ∧ DecState.reset.exp = 0
    ∧ DecState.reset.inPort = 1 ∧ DecState.reset.dstat = 0x00#8 := ⟨rfl, rfl, rfl, rfl, rfl⟩

/-- ENC's registers at reset (R260). -/
theorem EncState.reset_registers :
    EncState.reset.rsOut = 0x00#8 ∧ EncState.reset.lastIdx = -1 ∧ EncState.reset.estat = 0x00#8 :=
  ⟨rfl, rfl, rfl⟩

/-- `RESET` replaces ENC's registers by their reset values, whatever route was open (R224). -/
theorem exec_ctlEncReset (s : State) : exec .ctlEncReset s = .next (s.setEnc EncState.reset) := rfl

/-- Settles O43. A reset state holds the same two agents in every configuration, and each agent's
`RESET` event writes exactly that agent. -/
theorem resetValues : Obligations.ResetValues := by
  intro c
  obtain ⟨hrs, hpos, hexp, hinPort, hdstat⟩ := DecState.reset_registers
  obtain ⟨hrsOut, hlastIdx, hestat⟩ := EncState.reset_registers
  rw [State.resetWith_dec, State.resetWith_enc]
  exact ⟨hrs, DecState.read_reset_buf, hpos, hexp, hinPort, hdstat, hrsOut, hlastIdx, hestat,
    exec_ctlDecReset, exec_ctlEncReset⟩

end Sys2Proof.Machine
end

section
/-! PROOFS. The three input languages (spec/30_encoding.md sections 1, 4, 5 and 6): encoding an instruction
and decoding its input, and which command records decode. -/

namespace Sys2Proof

/-! ### Operands through the fields of a record -/

/-- A port within its field survives the record (R81). -/
theorem port_through_field {port : Nat} (h : portInField port = true) :
    (BitVec.ofNat 5 port).toNat = port := by
  rw [BitVec.toNat_ofNat]
  exact Nat.mod_eq_of_lt (portInField_lt h)

/-- A parameter number within its field survives the record (R81). -/
theorem param_through_field {param : Nat} (h : paramInField param = true) :
    (BitVec.ofNat 16 param).toNat = param := by
  rw [BitVec.toNat_ofNat]
  exact Nat.mod_eq_of_lt (paramInField_lt h)

/-- A value within its field survives the record (R81). -/
theorem val_through_field {val : Int} (h : valInField val = true) :
    (BitVec.ofInt 16 val).toInt = val := by
  rw [BitVec.toInt_ofInt]
  exact valInField_bmod h

/-- What a record carries is within its field (R81). -/
theorem portInField_toNat (p : BitVec 5) : portInField p.toNat = true := by
  simpa [portInField] using p.isLt

theorem paramInField_toNat (p : BitVec 16) : paramInField p.toNat = true := by
  simpa [paramInField] using p.isLt

theorem valInField_toInt (v : BitVec 16) : valInField v.toInt = true := by
  have hlo := BitVec.le_toInt v
  have hhi := BitVec.toInt_lt (x := v)
  simp only [valInField, Bool.and_eq_true, decide_eq_true_eq]
  omega

/-! ### Decoding what was encoded -/

/-- Every channel-voice status byte decodes to its instruction (R71). -/
theorem decodeWire_channelVoice (chan : Nibble) :
    ∀ p ∈ [((0x8#4 : Nibble), Instr.decNoteOffStatus), (0x9#4, Instr.decNoteOnStatus),
      (0xA#4, Instr.decPolyPressureStatus), (0xB#4, Instr.decControllerStatus),
      (0xC#4, Instr.decProgramChangeStatus), (0xD#4, Instr.decChannelPressureStatus),
      (0xE#4, Instr.decPitchBendStatus)],
    decode (.wire (byteOf p.1 chan)) = .ok (p.2 chan) := by
  have hbytes : ∀ c : Nibble,
      decodeWire (byteOf 0x8#4 c) = .decNoteOffStatus c
      ∧ decodeWire (byteOf 0x9#4 c) = .decNoteOnStatus c
      ∧ decodeWire (byteOf 0xA#4 c) = .decPolyPressureStatus c
      ∧ decodeWire (byteOf 0xB#4 c) = .decControllerStatus c
      ∧ decodeWire (byteOf 0xC#4 c) = .decProgramChangeStatus c
      ∧ decodeWire (byteOf 0xD#4 c) = .decChannelPressureStatus c
      ∧ decodeWire (byteOf 0xE#4 c) = .decPitchBendStatus c := by decide
  obtain ⟨h8, h9, hA, hB, hC, hD, hE⟩ := hbytes chan
  simp [decode, h8, h9, hA, hB, hC, hD, hE]

/-- A data byte decodes to its value (R70). -/
theorem decodeWire_data (v : Data7) : decodeWire (v.setWidth 8) = .decData v := by
  revert v; decide

/-- Settles O1. A wire byte and a control code hold their instruction whole; a command's operands survive
their fields because they are within range. -/
theorem decodeOfEncodeGivesInstruction : Obligations.DecodeOfEncodeGivesInstruction := by
  intro i hwf
  cases i
  case decNoteOffStatus chan => exact decodeWire_channelVoice chan (0x8#4, _) (by simp)
  case decNoteOnStatus chan => exact decodeWire_channelVoice chan (0x9#4, _) (by simp)
  case decPolyPressureStatus chan => exact decodeWire_channelVoice chan (0xA#4, _) (by simp)
  case decControllerStatus chan => exact decodeWire_channelVoice chan (0xB#4, _) (by simp)
  case decProgramChangeStatus chan => exact decodeWire_channelVoice chan (0xC#4, _) (by simp)
  case decChannelPressureStatus chan => exact decodeWire_channelVoice chan (0xD#4, _) (by simp)
  case decPitchBendStatus chan => exact decodeWire_channelVoice chan (0xE#4, _) (by simp)
  case decData v => exact congrArg Except.ok (decodeWire_data v)
  case encNoteOff | encNoteOn | encPolyPress | encControl | encProgram | encChanPress | encTuneReq
      | encClock | encTick | encStart | encContinue | encStop | encActSense | encSysReset
      | encSysEx =>
    have hport := port_through_field hwf
    simp [encode, commandFor, decode, decodeCommand, Command.sel, Command.bare, hport]
  case encPitchBend | encQFrame | encSongPos | encSongSel =>
    simp only [Instr.wellFormed, Bool.and_eq_true] at hwf
    obtain ⟨hval, hport⟩ := hwf
    have hport := port_through_field hport
    have hval := val_through_field hval
    simp [encode, commandFor, decode, decodeCommand, Command.sel, Command.bare, hport, hval]
  case encCc14 | encNrpn | encRpn =>
    simp only [Instr.wellFormed, Bool.and_eq_true] at hwf
    obtain ⟨⟨hparam, hval⟩, hport⟩ := hwf
    have hparam := param_through_field hparam
    have hport := port_through_field hport
    have hval := val_through_field hval
    simp [encode, commandFor, decode, decodeCommand, Command.sel, Command.bare, hparam, hport, hval]
  all_goals rfl

/-! ### Encoding what was decoded -/

/-- The input of an instruction goes to the instruction's own agent (R20). -/
theorem encode_agent (i : Instr) : (encode i).agent = i.agent := by
  cases i <;> rfl

/-- A wire byte is the one input of its instruction: its two nibbles, or its seven data bits, are all of
it (R70, R71). -/
theorem encode_decodeWire (b : Byte) : encode (decodeWire b) = .wire b := by
  revert b; decide

/-- Wire bytes are DEC's (R20). -/
theorem agent_decodeWire (b : Byte) : (decodeWire b).agent = .dec := by
  rw [← encode_agent, encode_decodeWire]
  rfl

/-- Wire bytes have no operand that could be out of range. -/
theorem wellFormed_decodeWire (b : Byte) : (decodeWire b).wellFormed = true := by
  revert b; decide

/-- What a listed selector decodes to has its operands from the record's fields, so it is well formed; its
own record has the same selector and port (R81 to R83). -/
theorem decodeCommand_canonical {c : Command} {i : Instr} (h : decodeCommand c = .ok i) :
    i.wellFormed = true ∧ ∃ c', encode i = .command c' ∧ c'.sel = c.sel ∧ c'.port = c.port := by
  have hport := portInField_toNat c.port
  have hparam := paramInField_toNat c.param
  have hval := valInField_toInt c.val
  unfold decodeCommand at h
  split at h
  case h_23 => cases h
  all_goals
    rename_i hsel
    cases h
    refine ⟨by simp only [Instr.wellFormed, hport, hparam, hval, Bool.and_self],
      _, rfl, ?_, BitVec.ofNat_toNat ..⟩
    rw [hsel]
    simp [Command.sel, Command.bare]

/-- The control codes of DEC that decode are those of its five events (R84). -/
theorem decodeDecControl_canonical {code : BitVec 3} {i : Instr} (h : decodeDecControl code = .ok i) :
    i.wellFormed = true ∧ encode i = .decControl code := by
  unfold decodeDecControl at h
  split at h <;> cases h <;> exact ⟨rfl, rfl⟩

/-- The control codes of ENC that decode are those of its six events (R84). -/
theorem decodeEncControl_canonical {code : BitVec 3} {i : Instr} (h : decodeEncControl code = .ok i) :
    i.wellFormed = true ∧ encode i = .encControl code := by
  unfold decodeEncControl at h
  split at h <;> cases h <;> exact ⟨rfl, rfl⟩

/-- Settles O2. The agent follows from the encoded input (`encode_agent`): where encoding gives the input
back it is the same input, and for a command it is again a command. -/
theorem decodedInputIsCanonical : Obligations.DecodedInputIsCanonical := by
  intro input i h
  have exact_input : i.wellFormed = true → encode i = input → (∀ c, input ≠ .command c) →
      i.wellFormed = true ∧ i.agent = input.agent
      ∧ (∀ c, input = .command c → ∃ c', encode i = .command c' ∧ c'.sel = c.sel ∧ c'.port = c.port)
      ∧ ((∀ c, input ≠ .command c) → encode i = input) := fun hwf henc hne =>
    ⟨hwf, by rw [← henc, encode_agent], fun c hc => absurd hc (hne c), fun _ => henc⟩
  cases input with
  | wire b =>
    cases h
    exact exact_input (wellFormed_decodeWire b) (encode_decodeWire b) (by simp)
  | command c =>
    obtain ⟨hwf, c', henc, hsel, hport⟩ := decodeCommand_canonical h
    refine ⟨hwf, ?_, ?_, fun hne => absurd rfl (hne c)⟩
    · rw [← encode_agent, henc]; rfl
    · intro _ hc
      cases hc
      exact ⟨c', henc, hsel, hport⟩
  | decControl code =>
    obtain ⟨hwf, henc⟩ := decodeDecControl_canonical h
    exact exact_input hwf henc (by simp)
  | encControl code =>
    obtain ⟨hwf, henc⟩ := decodeEncControl_canonical h
    exact exact_input hwf henc (by simp)

/-! ### Which commands decode -/

/-- The selectors of R83 in plain numbers. -/
theorem acceptedSelectors_contains_iff (cls : BitVec 3) (kind : Nibble) :
    acceptedSelectors.contains (cls ++ kind) = true ↔ cls.toNat * 16 + kind.toNat ∈
      [0x08, 0x09, 0x0A, 0x0B, 0x0C, 0x0D, 0x0E, 0x11, 0x12, 0x13, 0x16,
       0x28, 0x29, 0x2A, 0x2B, 0x2C, 0x2E, 0x2F, 0x30, 0x40, 0x41, 0x42] := by
  revert cls kind; decide

/-- Settles O3. -/
theorem exactlyTheListedSelectorsDecode : Obligations.ExactlyTheListedSelectorsDecode := by
  intro c
  rw [← acceptedSelectors_contains_iff]
  show (∃ i, decodeCommand c = .ok i) ↔ acceptedSelectors.contains c.sel = true
  rcases Machine.decodeCommand_cases c with ⟨hunlisted, hd⟩ | ⟨hlisted, i, _, hd, _⟩
  · simp only [hd, hunlisted, reduceCtorEq, exists_false, Bool.false_eq_true]
  · exact ⟨fun _ => hlisted, fun _ => ⟨i, hd⟩⟩

/-! ### Sample inputs -/

/-- Settles O4. Seven closed inputs, each decoded by evaluation. -/
theorem sampleInputsDecode : Obligations.SampleInputsDecode := by
  refine ⟨?_, ?_, ?_, ?_, ?_, ?_, ?_⟩ <;> decide

end Sys2Proof
end

section
/-! PROOFS. The step (spec/10_state.md R21, spec/44_control.md R230): the input it takes, the inputs that
are no instruction, and an accepted command record (spec/42_encoder.md R160). -/

namespace Sys2Proof.Machine

/-- Settles O5. -/
theorem stepRunsDecodedInstruction : Obligations.StepRunsDecodedInstruction :=
  fun _ _ _ _ hin hd => step_of_decode_ok hin hd

/-- Without an input a step keeps the state (R231, R250). -/
theorem step_of_no_inputs {s : State} (hin : s.inputs = []) : step s = .next s := by
  simp only [step, hin]

/-- Settles O6. -/
theorem stepWithoutInputKeepsState : Obligations.StepWithoutInputKeepsState :=
  fun _ => step_of_no_inputs

/-- The control codes of DEC that R84 gives no event. -/
theorem decodeDecControl_reserved {code : BitVec 3} (h : 5 ≤ code.toNat) :
    decodeDecControl code = .error (.reservedDecControl code) := by
  revert code; decide

/-- The control codes of ENC that R84 gives no event. -/
theorem decodeEncControl_reserved {code : BitVec 3} (h : 6 ≤ code.toNat) :
    decodeEncControl code = .error (.reservedEncControl code) := by
  revert code; decide

/-- Settles O7. -/
theorem reservedControlCodeIsRefused : Obligations.ReservedControlCodeIsRefused := by
  intro s rest code
  refine ⟨fun hcode hin => ?_, fun hcode hin => ?_⟩
  · simp only [step, hin, decode, decodeDecControl_reserved hcode]
  · simp only [step, hin, decode, decodeEncControl_reserved hcode]

/-! ### An accepted command record -/

/-- The parts of `Accept` in the order in which decoding and the operation check them. -/
theorem checks_of_accept {cfg : Config} {c : Command} (h : c.accept cfg = true) :
    acceptedSelectors.contains c.sel = true ∧ extraChecks cfg c = true
    ∧ portAccepted cfg c.port.toNat = true := by
  simpa only [Command.accept_eq, Bool.and_eq_true] using h

/-- A step on an accepted command puts out the port announcement and the record's own bytes (R160). -/
theorem step_of_accept {s : State} {c : Command} {rest : List Input}
    (hin : s.inputs = .command c :: rest) (hacc : c.accept s.cfg = true) :
    step s = .next (sent { s with inputs := rest } c.port.toNat
      (ownBytes c (routeRs s c.port.toNat)) (ownRs c (routeRs s c.port.toNat))) := by
  obtain ⟨hsel, hextra, hport⟩ := checks_of_accept hacc
  rcases decodeCommand_cases c with ⟨hunlisted, _⟩ | ⟨_, i, body, hd, hexec, hbody⟩
  · exact absurd hsel (Bool.eq_false_iff.1 hunlisted)
  · have hrun : ∀ u : State, u.cfg = s.cfg →
        exec i u = .next (sent u c.port.toNat (ownBytes c (routeRs u c.port.toNat))
          (ownRs c (routeRs u c.port.toNat))) := fun u hcfg => by
      rw [hexec, runCommand_accepted body (by rw [hcfg, hextra]) (by rw [hcfg, hport]), hbody]
    exact (step_of_decode_ok hin hd).trans (hrun _ rfl)

/-- The port as a wire byte (R206). -/
theorem port_byte (p : BitVec 5) : BitVec.ofNat 8 p.toNat = p.setWidth 8 :=
  BitVec.ofNat_toNat 8 p

theorem announces_iff (s : State) (port : Nat) :
    announces s port = true ↔ s.cfg.nPorts ≠ 1 ∧ s.enc.lastIdx ≠ (port : Int) - 1 := by
  simp [announces]

/-- Settles O28. `step_of_accept` gives the next state; whether the port is announced decides what
`routeBytes` and `routeRs` are. -/
theorem acceptedCommandAnnouncesPortFirst : Obligations.AcceptedCommandAnnouncesPortFirst := by
  intro s c rest hin hacc
  have hstep := step_of_accept hin hacc
  refine ⟨fun hroute => ?_, fun hroute => ?_⟩
  · have hann : announces s c.port.toNat = true := (announces_iff _ _).2 hroute
    have hann' : announces { s with inputs := rest } c.port.toNat = true := hann
    rw [hstep]
    simp only [sent, routeBytes, routeRs, hann, hann', if_true, port_byte]
  · have hann : announces s c.port.toNat = false := by
      rw [Bool.eq_false_iff, ne_eq, announces_iff]
      tauto
    have hann' : announces { s with inputs := rest } c.port.toNat = false := hann
    rw [hstep]
    simp [sent, routeBytes, routeRs, hann, hann']

end Sys2Proof.Machine
end

section
/-! PROOFS. The frames other than SysEx (spec/40_decoder.md sections 2, 4 and 5): the system-common status
bytes open one, data bytes extend and complete it, and no data byte fits beyond the buffer. -/

namespace Sys2Proof.Machine

/-! ### Opening a frame -/

/-- Settles O10. All five instructions are `ScStatus` with their own byte, and none of them is `F6`. -/
theorem systemCommonStatusOpensFrame : Obligations.SystemCommonStatusOpensFrame := by
  intro s p hp
  have hexec : exec p.2 s = .next (scStatus p.1 s) ∧ p.1 ≠ 0xF6#8 := by
    simp only [List.mem_cons, List.not_mem_nil, or_false] at hp
    rcases hp with rfl | rfl | rfl | rfl | rfl <;> exact ⟨rfl, by decide⟩
  obtain ⟨hexec, hne⟩ := hexec
  rw [scStatus_spec hne] at hexec
  exact ⟨_, hexec, rfl, Memory.read_write_same _ _ _, fun _ ha => Memory.read_write_ne _ _ ha,
    rfl, rfl, rfl, rfl, rfl⟩

/-! ### Data bytes that complete nothing -/

/-- Settles O18. -/
theorem strayDataByteIsDiscarded : Obligations.StrayDataByteIsDiscarded :=
  fun _ v hrs hpos => exec_decData_discarded v hrs hpos

/-- Settles O20. Of all a data byte can do (`dataByte_cases`) only one case has an open frame, not of
SysEx, that lacks more than one byte. -/
theorem dataByteExtendsOpenFrame : Obligations.DataByteExtendsOpenFrame := by
  intro s v hclosed hpos hmore hroom
  have hexec : exec (.decData v) s = .next (appended (v.setWidth 8) s) := by
    rcases dataByte_cases (v.setWidth 8) s with ⟨_, _, hzero, _⟩ | ⟨hopen, _⟩ | ⟨hopen, _⟩ |
      ⟨_, _, _, _, e⟩ | ⟨_, _, _, hdone, _⟩ | ⟨hbeyond, _⟩
    · omega
    · simp [hclosed] at hopen
    · simp [hclosed] at hopen
    · exact e
    · omega
    · omega
  exact ⟨_, hexec, Memory.read_write_same _ _ _, fun _ ha => Memory.read_write_ne _ _ ha, rfl, rfl⟩

/-- Where the buffer has no element left every data byte faults (R51). -/
theorem dataByte_beyond_buffer {s : State} (b : Byte) (h : s.cfg.sysexCap ≤ s.dec.pos) :
    dataByte b s = .fault .bufferOverrun := by
  have hcap := Config.three_le_sysexCap s.cfg
  rcases dataByte_cases b s with ⟨_, _, hzero, _⟩ | ⟨_, hmore, _⟩ | ⟨_, hfull, _⟩ |
    ⟨_, _, hroom, _⟩ | ⟨_, _, hroom, _⟩ | ⟨_, e⟩
  iterate 5 omega
  exact e

/-- Settles O26. -/
theorem appendBeyondBufferFaults : Obligations.AppendBeyondBufferFaults := by
  intro s hbeyond
  refine ⟨fun v => dataByte_beyond_buffer _ hbeyond, fun hopen => ?_⟩
  rcases eox_cases s with ⟨_, hroom, _⟩ | ⟨_, _, e⟩ | ⟨hclosed, _⟩
  · omega
  · exact e
  · simp [hopen] at hclosed

/-! ### Completing a frame -/

/-- `s` once the byte `b` has completed a frame (R127): `b` is stored, `e` emitted and `pos` becomes
`next`. -/
def frameCompleted (b : Byte) (next : Nat) (e : Event) (s : State) : State :=
  { s with
    dec := { s.dec with buf := Memory.write s.dec.buf s.dec.pos b, pos := next }
    events := s.events ++ [e] }

/-- The last data byte of a channel-voice frame emits its record; running status, if there is one, goes
on (R127, R128). -/
theorem dataByte_completes_channelVoice {s : State} (b : Byte)
    (hhead : (Memory.read s.dec.buf 0).toNat ≤ 0xEF) (hpos : 1 ≤ s.dec.pos)
    (hlast : s.dec.pos + 1 = s.dec.exp) (hlen : s.dec.exp ≤ 3) :
    dataByte b s = .next (frameCompleted b (if s.dec.rs ≠ 0x00#8 then 1 else 0)
      (cvEvent (Memory.readFrame s.dec.buf s.dec.pos ++ [b]) s.dec.inPort) s) := by
  have hne : Memory.read s.dec.buf 0 ≠ 0xF0#8 := fun h => by
    rw [h] at hhead; exact absurd hhead (by decide)
  obtain ⟨e, hhead', hframe⟩ := dataByte_completes (b := b) hne hpos hlast hlen
  rw [e]
  rcases complete_cases (appended b s) with ⟨_, e⟩ | ⟨_, h5, _⟩ | ⟨h5, _⟩ | ⟨hsc, _⟩
  · rw [e, hframe]; rfl
  · rw [← hhead', h5] at hhead; exact absurd hhead (by decide)
  · rw [← hhead', h5] at hhead; exact absurd hhead (by decide)
  · rw [hhead'] at hsc; omega

/-- The last data byte of a system-common frame emits its record; no running status remains (R127,
R129). -/
theorem dataByte_completes_systemCommon {s : State} (b : Byte) (hrs : s.dec.rs = 0x00#8)
    (hhead : 0xF0 < (Memory.read s.dec.buf 0).toNat) (h5 : Memory.read s.dec.buf 0 ≠ 0xF5#8)
    (hpos : 1 ≤ s.dec.pos) (hlast : s.dec.pos + 1 = s.dec.exp) (hlen : s.dec.exp ≤ 3) :
    dataByte b s = .next (frameCompleted b 0
      (scEvent (Memory.readFrame s.dec.buf s.dec.pos ++ [b]) s.dec.inPort) s) := by
  have hne : Memory.read s.dec.buf 0 ≠ 0xF0#8 := fun h => by
    rw [h] at hhead; exact absurd hhead (by decide)
  obtain ⟨e, hhead', hframe⟩ := dataByte_completes (b := b) hne hpos hlast hlen
  rw [e]
  rcases complete_cases (appended b s) with ⟨hcv, _⟩ | ⟨_, hps, _⟩ | ⟨hps, _⟩ | ⟨_, _, e⟩
  · rw [hhead'] at hcv; omega
  · exact absurd (hhead' ▸ hps) h5
  · exact absurd (hhead' ▸ hps) h5
  · have hstop : ¬ (appended b s).dec.rs ≠ 0x00#8 := not_not.2 hrs
    rw [e, hframe, if_neg hstop]; rfl

/-- Everything the completing data byte `v` changes. -/
theorem frameCompleted_changes {s : State} {v : Data7} {next : Nat} {e : Event}
    (h : exec (.decData v) s = .next (frameCompleted (v.setWidth 8) next e s)) :
    ∃ t, exec (.decData v) s = .next t
      ∧ t.events = s.events ++ [e]
      ∧ Memory.read t.dec.buf s.dec.pos = v.setWidth 8
      ∧ (∀ a, a ≠ s.dec.pos → Memory.read t.dec.buf a = Memory.read s.dec.buf a)
      ∧ t.dec = { s.dec with pos := next, buf := t.dec.buf }
      ∧ t = { s with dec := t.dec, events := t.events } :=
  ⟨_, h, rfl, Memory.read_write_same _ _ _, fun _ ha => Memory.read_write_ne _ _ ha, rfl, rfl⟩

/-! ### The records of complete frames -/

/-- The record of a channel-voice frame with one data byte (R128). -/
theorem cvEvent_one (kind chan : Nibble) (v : Data7) (port : Nat) :
    cvEvent [kind ++ chan, v.setWidth 8] port =
      { cls := .cv, kind := kind, status := kind ++ chan, chan := chan, d1 := v, d2 := 0#7
        hasD2 := false, val := cvValue kind v 0#7, raw := [kind ++ chan, v.setWidth 8], eox := false
        port := port } := by
  simp [cvEvent, highNibble_append, lowNibble_append]

/-- The record of a channel-voice frame with two data bytes (R128). -/
theorem cvEvent_two (kind chan : Nibble) (v w : Data7) (port : Nat) :
    cvEvent [kind ++ chan, v.setWidth 8, w.setWidth 8] port =
      { cls := .cv, kind := kind, status := kind ++ chan, chan := chan, d1 := v, d2 := w
        hasD2 := true, val := cvValue kind v w
        raw := [kind ++ chan, v.setWidth 8, w.setWidth 8], eox := false, port := port } := by
  simp [cvEvent, highNibble_append, lowNibble_append]

/-- The record of a system-common frame with one data byte (R129). -/
theorem scEvent_one (status : Byte) (v : Data7) (port : Nat) :
    scEvent [status, v.setWidth 8] port =
      { cls := .sc, kind := lowNibble status, status := status, chan := 0#4, d1 := v, d2 := 0#7
        hasD2 := false, val := scValue (lowNibble status) v 0#7, raw := [status, v.setWidth 8]
        eox := false, port := port } := by
  simp [scEvent]

/-- The record of a system-common frame with two data bytes (R129). -/
theorem scEvent_two (status : Byte) (v w : Data7) (port : Nat) :
    scEvent [status, v.setWidth 8, w.setWidth 8] port =
      { cls := .sc, kind := lowNibble status, status := status, chan := 0#4, d1 := v, d2 := w
        hasD2 := true, val := scValue (lowNibble status) v w
        raw := [status, v.setWidth 8, w.setWidth 8], eox := false, port := port } := by
  simp [scEvent]

/-- The first two elements of the buffer (R9). -/
theorem Memory.readFrame_one (m : Memory) : Memory.readFrame m 1 = [Memory.read m 0] := rfl

theorem Memory.readFrame_two (m : Memory) :
    Memory.readFrame m 2 = [Memory.read m 0, Memory.read m 1] := rfl

/-- The status bytes whose kind is 8 to E are the channel-voice ones (R71, R73). -/
theorem isChannelVoice_append {kind : Nibble} (hlo : 8 ≤ kind.toNat) (hhi : kind.toNat ≤ 0xE)
    (chan : Nibble) : isChannelVoice (kind ++ chan) := by
  revert kind chan; decide

/-- A channel-voice status byte is not the value of no running status (R22). -/
theorem ne_zero_of_isChannelVoice {b : Byte} (h : isChannelVoice b) : b ≠ 0x00#8 := fun hzero =>
  absurd (hzero ▸ h) (by decide)

/-- Settles O21. -/
theorem oneDataChannelVoiceFrameCompletes : Obligations.OneDataChannelVoiceFrameCompletes := by
  intro s chan v kind hkind hrs hhead hpos hexp
  have hcv : 8 ≤ kind.toNat ∧ kind.toNat ≤ 0xE ∧ cvValue kind v 0#7 = 0 := by
    simp only [List.mem_cons, List.not_mem_nil, or_false] at hkind
    rcases hkind with rfl | rfl <;> exact ⟨by decide, by decide, rfl⟩
  obtain ⟨hlo, hhi, hval⟩ := hcv
  have hcv := isChannelVoice_append hlo hhi chan
  have hrun : s.dec.rs ≠ 0x00#8 := hrs ▸ ne_zero_of_isChannelVoice hcv
  have hexec : exec (.decData v) s = _ := dataByte_completes_channelVoice (v.setWidth 8)
    (by rw [hhead]; exact hcv.2) (by omega) (by omega) (by omega)
  rw [if_pos hrun, hpos, Memory.readFrame_one, hhead, List.singleton_append, cvEvent_one, hval] at hexec
  have hchanges := frameCompleted_changes hexec
  rwa [hpos] at hchanges

/-- Settles O22. -/
theorem twoDataChannelVoiceFrameCompletes : Obligations.TwoDataChannelVoiceFrameCompletes := by
  intro s chan d1 v kind hkind hrs hhead hone hpos hexp
  have hcv : 8 ≤ kind.toNat ∧ kind.toNat ≤ 0xE := by
    simp only [List.mem_cons, List.not_mem_nil, or_false] at hkind
    rcases hkind with rfl | rfl | rfl | rfl | rfl <;> exact ⟨by decide, by decide⟩
  obtain ⟨hlo, hhi⟩ := hcv
  have hcv := isChannelVoice_append hlo hhi chan
  have hrun : s.dec.rs ≠ 0x00#8 := hrs ▸ ne_zero_of_isChannelVoice hcv
  have hexec : exec (.decData v) s = _ := dataByte_completes_channelVoice (v.setWidth 8)
    (by rw [hhead]; exact hcv.2) (by omega) (by omega) (by omega)
  rw [if_pos hrun, hpos, Memory.readFrame_two, hhead, hone, List.cons_append, List.singleton_append, cvEvent_two,
    cvValue, unbias14_eq] at hexec
  have hchanges := frameCompleted_changes hexec
  rwa [hpos] at hchanges

/-- Settles O23. -/
theorem oneDataSystemCommonFrameCompletes : Obligations.OneDataSystemCommonFrameCompletes := by
  intro s v p hp hrs hhead hpos hexp
  have hsc : 0xF0 < p.1.toNat ∧ p.1 ≠ 0xF5#8 ∧ lowNibble p.1 = p.2
      ∧ scValue p.2 v 0#7 = (v.toNat : Int) := by
    simp only [List.mem_cons, List.not_mem_nil, or_false] at hp
    rcases hp with rfl | rfl | rfl <;> exact ⟨by decide, by decide, by decide, rfl⟩
  obtain ⟨hlo, h5, hkind, hval⟩ := hsc
  have hexec : exec (.decData v) s = _ := dataByte_completes_systemCommon (v.setWidth 8) hrs
    (by rwa [hhead]) (by rwa [hhead]) (by omega) (by omega) (by omega)
  rw [hpos, Memory.readFrame_one, hhead, List.singleton_append, scEvent_one, hkind, hval] at hexec
  have hchanges := frameCompleted_changes hexec
  rwa [hpos] at hchanges

/-- Settles O24. -/
theorem songPositionFrameCompletes : Obligations.SongPositionFrameCompletes := by
  intro s d1 v hrs hhead hone hpos hexp
  have hval : scValue 2#4 d1 v = (d1.toNat : Int) + 128 * (v.toNat : Int) - 8192 :=
    unbias14_eq d1 v
  have hkind : lowNibble 0xF2#8 = 2#4 := by decide
  have hexec : exec (.decData v) s = _ := dataByte_completes_systemCommon (v.setWidth 8) hrs
    (by rw [hhead]; decide) (by rw [hhead]; decide) (by omega) (by omega) (by omega)
  rw [hpos, Memory.readFrame_two, hhead, hone, List.cons_append, List.singleton_append, scEvent_two,
    hkind, hval] at hexec
  have hchanges := frameCompleted_changes hexec
  rwa [hpos] at hchanges

end Sys2Proof.Machine
end

section
/-! PROOFS. The two agents (spec/10_state.md R20): what an instruction computes depends on the
configuration and on its own agent's registers alone, and it writes nothing else. Frames, the
transparency of real-time bytes and the commuting of the agents' steps all follow from that. -/

namespace Sys2Proof.Machine

/-! ### One agent's part of a state -/

/-- An outcome with its next state replaced. -/
def mapNext (f : State → State) :
    Host.Outcome State Fault Refusal → Host.Outcome State Fault Refusal
  | .next t => .next (f t)
  | .fault r => .fault r
  | .refused r => .refused r

/-- The reset state with the configuration and DEC's registers of `s`: all that DEC reads. -/
def State.decView (s : State) : State := { State.resetWith s.cfg with dec := s.dec }

/-- The reset state with the configuration and ENC's registers of `s`: all that ENC reads. -/
def State.encView (s : State) : State := { State.resetWith s.cfg with enc := s.enc }

/-- `s` with DEC's registers and new outputs those of `t`. -/
def State.graftDec (s t : State) : State :=
  { s with dec := t.dec, events := s.events ++ t.events, decReads := s.decReads ++ t.decReads }

/-- `s` with ENC's registers and new outputs those of `t`. -/
def State.graftEnc (s t : State) : State :=
  { s with enc := t.enc, wireOut := s.wireOut ++ t.wireOut, encReads := s.encReads ++ t.encReads }

/-! The proofs of the four read-backs stand in brackets so that `simp` rewrites with them and does not
unfold through them: a condition and its decision procedure are then rewritten together. -/

@[simp] theorem State.decView_cfg (s : State) : s.decView.cfg = s.cfg := (rfl)
@[simp] theorem State.decView_dec (s : State) : s.decView.dec = s.dec := (rfl)
@[simp] theorem State.encView_cfg (s : State) : s.encView.cfg = s.cfg := (rfl)
@[simp] theorem State.encView_enc (s : State) : s.encView.enc = s.enc := (rfl)

/-- What DEC puts out from its view alone is all that is new. -/
@[simp] theorem State.graftDec_decView (s : State) : s.graftDec s.decView = s := by
  simp [State.graftDec, State.decView, State.resetWith]

@[simp] theorem State.graftEnc_encView (s : State) : s.graftEnc s.encView = s := by
  simp [State.graftEnc, State.encView, State.resetWith]

/-- Registers that are written before an operation runs are part of its view and of nothing else. -/
theorem State.setDec_decView (s : State) (d : DecState) :
    s.decView.setDec d = (s.setDec d).decView := rfl

@[simp] theorem State.graftDec_of_setDec (s t : State) (d : DecState) :
    (s.setDec d).graftDec t = s.graftDec t := rfl

/-- Grafting commutes with each update DEC makes. -/
theorem State.graftDec_setDec (s t : State) (d : DecState) :
    s.graftDec (t.setDec d) = (s.graftDec t).setDec d := rfl

theorem State.graftDec_emit (s t : State) (e : Event) :
    s.graftDec (t.emit e) = (s.graftDec t).emit e := by
  simp [State.graftDec, State.emit]

theorem State.graftDec_returnDec (s t : State) (v : Byte) :
    s.graftDec (t.returnDec v) = (s.graftDec t).returnDec v := by
  simp [State.graftDec, State.returnDec]

/-- Grafting commutes with each update ENC makes. -/
theorem State.graftEnc_setEnc (s t : State) (e : EncState) :
    s.graftEnc (t.setEnc e) = (s.graftEnc t).setEnc e := rfl

theorem State.graftEnc_send (s t : State) (bytes : List Byte) :
    s.graftEnc (t.send bytes) = (s.graftEnc t).send bytes := by
  simp [State.graftEnc, State.send]

theorem State.graftEnc_returnEnc (s t : State) (v : Byte) :
    s.graftEnc (t.returnEnc v) = (s.graftEnc t).returnEnc v := by
  simp [State.graftEnc, State.returnEnc]

theorem mapNext_eq_next {f : State → State} {o : Host.Outcome State Fault Refusal} {t : State} :
    mapNext f o = .next t ↔ ∃ u, o = .next u ∧ f u = t := by
  cases o <;> simp [mapNext]

theorem mapNext_eq_fault {f : State → State} {o : Host.Outcome State Fault Refusal} {r : Fault} :
    mapNext f o = .fault r ↔ o = .fault r := by
  cases o <;> simp [mapNext]

theorem mapNext_eq_refused {f : State → State} {o : Host.Outcome State Fault Refusal} {r : Refusal} :
    mapNext f o = .refused r ↔ o = .refused r := by
  cases o <;> simp [mapNext]

/-- What one agent writes, the other does not read. -/
theorem State.encView_graftDec (s t : State) : (s.graftDec t).encView = s.encView := rfl
theorem State.decView_graftEnc (s t : State) : (s.graftEnc t).decView = s.decView := rfl

/-- Neither agent reads the records. -/
theorem State.decView_emit (s : State) (e : Event) : (s.emit e).decView = s.decView := rfl
theorem State.encView_emit (s : State) (e : Event) : (s.emit e).encView = s.encView := rfl

/-! ### DEC's operations

Each operation reads `s.dec` and `s.cfg` only, which `s.decView` shares, and writes through `setDec` and
`emit`, with which grafting commutes. -/

theorem sysexAbort_graftDec (s : State) : sysexAbort s = s.graftDec (sysexAbort s.decView) := by
  simp only [sysexAbort, State.decView_dec]
  split_ifs <;> simp [State.graftDec_setDec]

theorem realTime_graftDec (b : Byte) (s : State) :
    realTime b s = s.graftDec (realTime b s.decView) := by
  simp [realTime, State.graftDec_emit]

theorem cvStatus_graftDec (kind chan : Nibble) (s : State) :
    cvStatus kind chan s = s.graftDec (cvStatus kind chan s.decView) := by
  simp only [cvStatus, State.graftDec_setDec, sysexAbort_graftDec s]
  rfl

theorem sysexStart_graftDec (s : State) : sysexStart s = s.graftDec (sysexStart s.decView) := by
  simp only [sysexStart, State.graftDec_setDec, sysexAbort_graftDec s]
  rfl

theorem scStatus_graftDec (b : Byte) (s : State) :
    scStatus b s = s.graftDec (scStatus b s.decView) := by
  simp only [scStatus, sysexAbort_graftDec s]
  split_ifs
  · simp only [State.graftDec_emit, State.graftDec_setDec]; rfl
  · simp only [State.graftDec_setDec]; rfl

theorem eox_graftDec (s : State) : eox s = mapNext s.graftDec (eox s.decView) := by
  simp only [eox, State.decView_dec, State.decView_cfg]
  split_ifs
  · cases s.dec.append s.cfg.sysexCap 0xF7#8 <;>
      simp [mapNext, State.graftDec_emit, State.graftDec_setDec]
  · simp [mapNext, State.graftDec_setDec]

theorem truncate_graftDec (s : State) : truncate s = s.graftDec (truncate s.decView) := by
  simp [truncate, State.graftDec_emit, State.graftDec_setDec]

theorem sysexData_graftDec (b : Byte) (s : State) :
    sysexData b s = mapNext s.graftDec (sysexData b s.decView) := by
  simp only [sysexData, State.decView_dec, State.decView_cfg]
  cases s.dec.append s.cfg.sysexCap b with
  | none => rfl
  | some d =>
    simp only [mapNext]
    split_ifs
    · rw [State.setDec_decView, truncate_graftDec, State.graftDec_of_setDec]
    · simp [State.graftDec_setDec]

theorem portSelect_graftDec (pp : Byte) (s : State) :
    portSelect pp s = s.graftDec (portSelect pp s.decView) := by
  simp only [portSelect, State.decView_dec, State.decView_cfg]
  cases resolvePort s.cfg pp <;> simp [State.graftDec_emit, State.graftDec_setDec]

theorem emitFrame_graftDec (s : State) : emitFrame s = s.graftDec (emitFrame s.decView) := by
  simp only [emitFrame, State.decView_dec]
  split_ifs
  · simp [State.graftDec_emit]
  · exact portSelect_graftDec _ s
  · simp [State.graftDec_emit]

theorem complete_graftDec (s : State) : complete s = s.graftDec (complete s.decView) := by
  simp only [complete, State.graftDec_setDec, emitFrame_graftDec s]
  rfl

theorem dataByte_graftDec (b : Byte) (s : State) :
    dataByte b s = mapNext s.graftDec (dataByte b s.decView) := by
  simp only [dataByte, State.decView_dec, State.decView_cfg]
  split_ifs
  · simp [mapNext]
  · exact sysexData_graftDec b s
  · cases s.dec.append s.cfg.sysexCap b with
    | none => rfl
    | some d =>
      simp only [mapNext]
      split_ifs
      · rw [State.setDec_decView, complete_graftDec, State.graftDec_of_setDec]
      · simp [State.graftDec_setDec]

/-! ### ENC's operations -/

theorem rejectCommand_graftEnc (s : State) :
    rejectCommand s = s.graftEnc (rejectCommand s.encView) := by
  simp [rejectCommand, State.graftEnc_setEnc]

theorem routePrefix_graftEnc (port : Nat) (s : State) :
    routePrefix port s = s.graftEnc (routePrefix port s.encView) := by
  simp only [routePrefix, State.encView_cfg, State.encView_enc]
  split_ifs <;> simp [State.graftEnc_setEnc, State.graftEnc_send]

/-- An operation on the state that reads and writes ENC's part of it alone. -/
def RunsOnEnc (body : State → State) : Prop :=
  ∀ s t : State, body (s.graftEnc t) = s.graftEnc (body t)

theorem cvOut_runsOnEnc (kind chan : Nibble) (bytes : List Byte) :
    RunsOnEnc (cvOut kind chan bytes) := fun s t => by
  simp only [cvOut, State.graftEnc_setEnc, State.graftEnc_send]
  rfl

theorem plainOut_runsOnEnc (bytes : List Byte) : RunsOnEnc (plainOut bytes) := fun s t => by
  simp only [plainOut, State.graftEnc_setEnc, State.graftEnc_send]
  rfl

theorem rtOut_runsOnEnc (kind : Nibble) : RunsOnEnc (rtOut kind) := fun s t =>
  (State.graftEnc_send s t _).symm

theorem x14Out_runsOnEnc (chan : Nibble) (bytes : List Byte) :
    RunsOnEnc (x14Out chan bytes) := fun s t => by
  simp only [x14Out, State.graftEnc_setEnc, State.graftEnc_send]
  rfl

/-- A command, whatever its body and the check it adds (R160). -/
theorem runCommand_graftEnc (extra : Bool) (port : Nat) {body : State → State}
    (hbody : RunsOnEnc body) (s : State) :
    runCommand extra port body s = s.graftEnc (runCommand extra port body s.encView) := by
  simp only [runCommand, State.encView_cfg]
  split_ifs
  · rw [← hbody, ← routePrefix_graftEnc]
  · exact rejectCommand_graftEnc s

/-! ### Instructions -/

/-- A wire byte runs on DEC's part of the state. -/
theorem exec_wire_graftDec (b : Byte) (s : State) :
    exec (decodeWire b) s = mapNext s.graftDec (exec (decodeWire b) s.decView) := by
  rcases exec_wire b with ⟨_, e⟩ | ⟨_, e⟩ | ⟨_, e⟩ | ⟨_, _, e⟩ | ⟨_, e⟩ | ⟨_, e⟩
  · rw [e, e, realTime_graftDec]; rfl
  · rw [e, e, cvStatus_graftDec]; rfl
  · rw [e, e, sysexStart_graftDec]; rfl
  · rw [e, e, scStatus_graftDec]; rfl
  · rw [e, e, eox_graftDec]
  · rw [e, e, dataByte_graftDec]

/-- A control event that writes DEC's registers, given what it writes. -/
theorem setDec_graftDec (s : State) (d : DecState) :
    Host.Outcome.next (s.setDec d) = mapNext s.graftDec (.next (s.decView.setDec d)) := by
  simp [mapNext, State.graftDec_setDec]

/-- A control event that writes ENC's registers, given what it writes. -/
theorem setEnc_graftEnc (s : State) (e : EncState) :
    Host.Outcome.next (s.setEnc e) = mapNext s.graftEnc (.next (s.encView.setEnc e)) := by
  simp [mapNext, State.graftEnc_setEnc]

/-- An instruction of DEC runs on DEC's part of the state: a wire byte or one of five control events. -/
theorem exec_graftDec {i : Instr} (h : i.agent = .dec) (s : State) :
    exec i s = mapNext s.graftDec (exec i s.decView) := by
  rcases instr_cases i with ⟨b, hb, _⟩ | ⟨c, hc⟩ | hcontrol
  · rw [hb, exec_wire_graftDec]
  · rw [← encode_agent, hc] at h
    cases h
  · simp only [List.mem_cons, List.not_mem_nil, or_false] at hcontrol
    rcases hcontrol with rfl | rfl | rfl | rfl | rfl | rfl | rfl | rfl | rfl | rfl | rfl
    iterate 4 exact setDec_graftDec s _
    · show Host.Outcome.next (s.returnDec _) = .next (s.graftDec (s.decView.returnDec _))
      rw [State.graftDec_returnDec, State.graftDec_decView]
      rfl
    all_goals cases h

/-- An instruction of ENC runs on ENC's part of the state: a command, whose body is one of four, or one of
six control events. -/
theorem exec_graftEnc {i : Instr} (h : i.agent = .enc) (s : State) :
    exec i s = mapNext s.graftEnc (exec i s.encView) := by
  cases i
  case encNoteOff | encNoteOn | encPolyPress | encControl | encProgram | encChanPress
      | encPitchBend =>
    exact congrArg _ (runCommand_graftEnc _ _ (cvOut_runsOnEnc _ _ _) s)
  case encQFrame | encSongPos | encSongSel | encTuneReq | encSysEx =>
    exact congrArg _ (runCommand_graftEnc _ _ (plainOut_runsOnEnc _) s)
  case encClock | encTick | encStart | encContinue | encStop | encActSense | encSysReset =>
    exact congrArg _ (runCommand_graftEnc _ _ (rtOut_runsOnEnc _) s)
  case encCc14 | encNrpn | encRpn =>
    exact congrArg _ (runCommand_graftEnc _ _ (x14Out_runsOnEnc _ _) s)
  case ctlEncReset | ctlEncWriteError | ctlEncIdleExpired | ctlEncSubsEdge | ctlEncEstatClear =>
    exact setEnc_graftEnc s _
  case ctlEncStatusRead =>
    show Host.Outcome.next (s.returnEnc _) = .next (s.graftEnc (s.encView.returnEnc _))
    rw [State.graftEnc_returnEnc, State.graftEnc_encView]
    rfl
  all_goals cases h

/-- Everything an instruction can do to a state: it replaces its own agent's registers and adds to its own
agent's outputs, both found from that agent's view. -/
theorem exec_next_cases {i : Instr} {s t : State} (h : exec i s = .next t) :
    (i.agent = .dec ∧ ∃ u, exec i s.decView = .next u ∧ s.graftDec u = t)
    ∨ (i.agent = .enc ∧ ∃ u, exec i s.encView = .next u ∧ s.graftEnc u = t) := by
  cases hagent : i.agent with
  | dec => exact .inl ⟨rfl, mapNext_eq_next.1 (exec_graftDec hagent s ▸ h)⟩
  | enc => exact .inr ⟨rfl, mapNext_eq_next.1 (exec_graftEnc hagent s ▸ h)⟩

/-! ### Frames -/

/-- Settles O8. -/
theorem configurationAndInputsAreKept : Obligations.ConfigurationAndInputsAreKept := by
  intro i s t h
  rcases exec_next_cases h with ⟨_, _, _, rfl⟩ | ⟨_, _, _, rfl⟩ <;> exact ⟨rfl, rfl⟩

/-- Settles O54. -/
theorem agentsWriteOnlyTheirOwnState : Obligations.AgentsWriteOnlyTheirOwnState := by
  intro i s t h
  rcases exec_next_cases h with ⟨hagent, _, _, rfl⟩ | ⟨hagent, _, _, rfl⟩
  · exact ⟨fun _ => ⟨rfl, rfl, rfl⟩, fun henc => by simp [hagent] at henc⟩
  · exact ⟨fun hdec => by simp [hagent] at hdec, fun _ => ⟨rfl, rfl, rfl⟩⟩

/-! ### Commuting steps -/

/-- A step of ENC after a step of DEC can be taken before it: neither writes what the other reads. -/
theorem exec_enc_before_dec {i j : Instr} {s t u : State} (hi : i.agent = .dec) (hj : j.agent = .enc)
    (hit : exec i s = .next t) (hju : exec j t = .next u) :
    ∃ t', exec j s = .next t' ∧ exec i t' = .next u := by
  rw [exec_graftDec hi, mapNext_eq_next] at hit
  obtain ⟨d, hd, rfl⟩ := hit
  rw [exec_graftEnc hj, State.encView_graftDec, mapNext_eq_next] at hju
  obtain ⟨e, he, rfl⟩ := hju
  refine ⟨s.graftEnc e, by rw [exec_graftEnc hj, he]; rfl, ?_⟩
  rw [exec_graftDec hi, State.decView_graftEnc, hd]
  rfl

/-- A step of DEC after a step of ENC can be taken before it. -/
theorem exec_dec_before_enc {i j : Instr} {s t u : State} (hi : i.agent = .enc) (hj : j.agent = .dec)
    (hit : exec i s = .next t) (hju : exec j t = .next u) :
    ∃ t', exec j s = .next t' ∧ exec i t' = .next u := by
  rw [exec_graftEnc hi, mapNext_eq_next] at hit
  obtain ⟨e, he, rfl⟩ := hit
  rw [exec_graftDec hj, State.decView_graftEnc, mapNext_eq_next] at hju
  obtain ⟨d, hd, rfl⟩ := hju
  refine ⟨s.graftDec d, by rw [exec_graftDec hj, hd]; rfl, ?_⟩
  rw [exec_graftEnc hi, State.encView_graftDec, he]
  rfl

/-- Settles O55. -/
theorem stepsOfTheTwoAgentsCommute : Obligations.StepsOfTheTwoAgentsCommute := by
  intro i j s t u hne hit hju
  cases hi : i.agent <;> cases hj : j.agent
  · exact absurd (hi.trans hj.symm) hne
  · exact exec_enc_before_dec hi hj hit hju
  · exact exec_dec_before_enc hi hj hit hju
  · exact absurd (hi.trans hj.symm) hne

/-! ### Real-time bytes -/

/-- Records emitted before an instruction change nothing but the records after it. -/
theorem exec_after_emit (i : Instr) (s : State) (e : Event) :
    (∀ t, exec i s = .next t → ∃ new, t.events = s.events ++ new
      ∧ exec i (s.emit e) = .next { t with events := (s.emit e).events ++ new })
    ∧ (∀ f, exec i s = .fault f → exec i (s.emit e) = .fault f)
    ∧ (∀ r, exec i s = .refused r → exec i (s.emit e) = .refused r) := by
  cases hagent : i.agent with
  | dec =>
    have hemit := exec_graftDec hagent (s.emit e)
    rw [State.decView_emit] at hemit
    rw [exec_graftDec hagent s, hemit]
    simp only [mapNext_eq_next, mapNext_eq_fault, mapNext_eq_refused]
    exact ⟨fun t ⟨u, hu, ht⟩ => ⟨u.events, by rw [← ht]; rfl, u, hu, by rw [← ht]; rfl⟩,
      fun _ => id, fun _ => id⟩
  | enc =>
    have hemit := exec_graftEnc hagent (s.emit e)
    rw [State.encView_emit] at hemit
    rw [exec_graftEnc hagent s, hemit]
    simp only [mapNext_eq_next, mapNext_eq_fault, mapNext_eq_refused]
    exact ⟨fun t ⟨u, hu, ht⟩ => ⟨[], by rw [← ht, List.append_nil]; rfl, u, hu,
      by rw [← ht, List.append_nil]; rfl⟩, fun _ => id, fun _ => id⟩

/-- Settles O17. A real-time byte is one more record (`exec_realTime`). -/
theorem realTimeByteIsTransparent : Obligations.RealTimeByteIsTransparent := by
  intro s b i hrt
  exact ⟨_, exec_realTime hrt s, exec_after_emit i s _⟩

end Sys2Proof.Machine
end

section
/-! PROOFS. What an instruction leaves of running status, of the sticky status bits and of the route, and
how many records it emits (spec/10_state.md sections 2 and 3, spec/40_decoder.md section 5,
spec/60_exceptions.md section 1): rules that hold in every state. -/

namespace Sys2Proof.Machine

/-! ### What a wire byte changes -/

/-- No record more, or one. -/
def emitsAtMostOne (s t : State) : Prop := t.events = s.events ∨ ∃ e, t.events = s.events ++ [e]

/-- A complete frame keeps running status, can only set `PORT_RANGE`, and emits at most one record. -/
theorem complete_changes (s : State) :
    (complete s).dec.rs = s.dec.rs
    ∧ ((complete s).dec.dstat = s.dec.dstat ∨ (complete s).dec.dstat = s.dec.dstat ||| 0x04#8)
    ∧ emitsAtMostOne s (complete s) := by
  rcases complete_cases s with ⟨_, e⟩ | ⟨_, _, _, e⟩ | ⟨_, _, e⟩ | ⟨_, _, e⟩ <;> rw [e]
  · exact ⟨rfl, .inl rfl, .inr ⟨_, rfl⟩⟩
  · exact ⟨rfl, .inl rfl, .inr ⟨_, rfl⟩⟩
  · exact ⟨rfl, .inr rfl, .inl rfl⟩
  · exact ⟨rfl, .inl rfl, .inr ⟨_, rfl⟩⟩

/-- A data byte keeps running status, sets at most one of `SX_TRUNC` and `PORT_RANGE`, and emits at most
one record. -/
theorem dataByte_changes {s t : State} {b : Byte} (h : dataByte b s = .next t) :
    t.dec.rs = s.dec.rs
    ∧ (t.dec.dstat = s.dec.dstat ∨ t.dec.dstat = s.dec.dstat ||| 0x01#8
        ∨ t.dec.dstat = s.dec.dstat ||| 0x04#8)
    ∧ emitsAtMostOne s t := by
  rcases dataByte_cases b s with ⟨_, _, _, e⟩ | ⟨_, _, e⟩ | ⟨_, _, e⟩ | ⟨_, _, _, _, e⟩ |
    ⟨_, _, _, _, e⟩ | ⟨_, e⟩ <;> rw [e] at h <;> cases h
  · exact ⟨rfl, .inl rfl, .inl rfl⟩
  · exact ⟨rfl, .inl rfl, .inl rfl⟩
  · exact ⟨rfl, .inr (.inl rfl), .inr ⟨_, rfl⟩⟩
  · exact ⟨rfl, .inl rfl, .inl rfl⟩
  · obtain ⟨hrs, hdstat, hevents⟩ := complete_changes (appended b s)
    exact ⟨hrs, hdstat.imp_right .inr, hevents⟩

/-- The running status a status byte leaves when it found `rs` (R22). -/
def statusRs (b rs : Byte) : Byte :=
  if b.toNat < 0xF0 then b else if b.toNat < 0xF8 then 0x00#8 else rs

/-- A status byte leaves the running status of its class, can only set `SX_ABORT`, and emits at most one
record. -/
theorem statusByte_changes {s t : State} {b : Byte} (hstatus : ¬ isData b)
    (h : exec (decodeWire b) s = .next t) :
    t.dec.rs = statusRs b s.dec.rs
    ∧ (t.dec.dstat = s.dec.dstat ∨ t.dec.dstat = s.dec.dstat ||| 0x02#8)
    ∧ emitsAtMostOne s t := by
  have habort : ∀ d : DecState, (if d.sxOpen then d.dstat ||| 0x02#8 else d.dstat) = d.dstat
      ∨ (if d.sxOpen then d.dstat ||| 0x02#8 else d.dstat) = d.dstat ||| 0x02#8 := fun d => by
    cases d.sxOpen
    · exact .inl rfl
    · exact .inr rfl
  rcases exec_wire b with ⟨hrt, e⟩ | ⟨⟨_, hcv⟩, e⟩ | ⟨rfl, e⟩ | ⟨hlo, hhi, e⟩ | ⟨rfl, e⟩ | ⟨hdata, _⟩
  · rw [e, realTime_spec] at h
    cases h
    have hrs : statusRs b s.dec.rs = s.dec.rs := by
      rw [statusRs, if_neg (by omega), if_neg (by omega)]
    exact ⟨hrs.symm, .inl rfl, .inr ⟨_, rfl⟩⟩
  · rw [e, cvStatus_spec, byteOf_nibbles] at h
    cases h
    have hrs : statusRs b s.dec.rs = b := if_pos (by omega)
    exact ⟨hrs.symm, habort s.dec, .inl rfl⟩
  · rw [e, sysexStart_spec] at h
    cases h
    exact ⟨rfl, habort s.dec, .inl rfl⟩
  · have hrs : statusRs b s.dec.rs = 0x00#8 := by
      rw [statusRs, if_neg (by omega), if_pos (by omega)]
    by_cases h6 : b = 0xF6#8
    · rw [e, h6, scStatus_tuneRequest_spec] at h
      cases h
      exact ⟨hrs.symm, habort s.dec, .inr ⟨_, rfl⟩⟩
    · rw [e, scStatus_spec h6] at h
      cases h
      exact ⟨hrs.symm, habort s.dec, .inl rfl⟩
  · rw [e] at h
    rcases eox_cases s with ⟨_, _, e⟩ | ⟨_, _, e⟩ | ⟨_, e⟩ <;> rw [e] at h <;> cases h
    · exact ⟨rfl, .inl rfl, .inr ⟨_, rfl⟩⟩
    · exact ⟨rfl, .inl rfl, .inl rfl⟩
  · exact absurd hdata hstatus

/-- Settles O53. -/
theorem decoderRunningStatusFollowsStatusBytes : Obligations.DecoderRunningStatusFollowsStatusBytes := by
  intro s t b h
  by_cases hdata : isData b
  · rw [exec_data hdata] at h
    obtain ⟨hrs, _, _⟩ := dataByte_changes h
    refine ⟨fun _ => hrs, fun _ => hrs, fun hcv => ?_, fun hlo _ => ?_⟩ <;> omega
  · obtain ⟨hrs, _, _⟩ := statusByte_changes hdata h
    rw [hrs, statusRs]
    refine ⟨fun hrt => ?_, fun hd => absurd hd hdata, fun hcv => ?_, fun hlo hhi => ?_⟩
    · rw [if_neg (by omega), if_neg (by omega)]
    · exact if_pos (by omega)
    · rw [if_neg (by omega), if_pos (by omega)]

/-- Settles O49. -/
theorem wireByteSetsAtMostOneStatusBit : Obligations.WireByteSetsAtMostOneStatusBit := by
  intro s t b h
  by_cases hdata : isData b
  · rw [exec_data hdata] at h
    obtain ⟨_, hdstat, _⟩ := dataByte_changes h
    exact ⟨fun hstatus => absurd hdata (Nat.not_lt.2 hstatus), fun _ => hdstat⟩
  · obtain ⟨_, hdstat, _⟩ := statusByte_changes hdata h
    exact ⟨fun _ => hdstat, fun h => absurd h hdata⟩

/-- A wire byte emits at most one record (R132). -/
theorem wire_emitsAtMostOne {s t : State} {b : Byte} (h : exec (decodeWire b) s = .next t) :
    emitsAtMostOne s t := by
  by_cases hdata : isData b
  · rw [exec_data hdata] at h
    obtain ⟨_, _, hevents⟩ := dataByte_changes h
    exact hevents
  · obtain ⟨_, _, hevents⟩ := statusByte_changes hdata h
    exact hevents

/-! ### What a command and a control event change -/

/-- A command, accepted or refused, emits no record. -/
theorem command_keeps_events {i : Instr} {c : Command} {s t : State} (hi : encode i = .command c)
    (h : exec i s = .next t) : t.events = s.events := by
  rcases exec_command hi s with e | ⟨_, _, _, _, _, e⟩ <;> rw [e] at h <;> cases h <;> rfl

/-- A control event emits no record; two of each agent's write its status register, and four write the
route. -/
theorem control_changes {i : Instr} {s t : State}
    (hi : i ∈ [Instr.ctlDecReset, .ctlDecRxError, .ctlDecInRouteReset, .ctlDecDstatClear,
      .ctlDecStatusRead, .ctlEncReset, .ctlEncWriteError, .ctlEncIdleExpired, .ctlEncSubsEdge,
      .ctlEncEstatClear, .ctlEncStatusRead])
    (h : exec i s = .next t) :
    t.events = s.events
    ∧ (i ≠ .ctlDecDstatClear → i ≠ .ctlDecReset → t.dec.dstat = s.dec.dstat)
    ∧ (i ≠ .ctlEncEstatClear → i ≠ .ctlEncReset → t.enc.estat = s.enc.estat)
    ∧ (i ∉ [Instr.ctlEncWriteError, .ctlEncIdleExpired, .ctlEncSubsEdge, .ctlEncReset] →
        t.enc.lastIdx = s.enc.lastIdx) := by
  simp only [List.mem_cons, List.not_mem_nil, or_false] at hi
  rcases hi with rfl | rfl | rfl | rfl | rfl | rfl | rfl | rfl | rfl | rfl | rfl <;> cases h <;> simp

/-- Settles O47. -/
theorem stepEmitsAtMostOneEvent : Obligations.StepEmitsAtMostOneEvent := by
  intro i s t h
  rcases instr_cases i with ⟨b, rfl, henc⟩ | ⟨c, hc⟩ | hcontrol
  · exact ⟨wire_emitsAtMostOne h, fun _ => ⟨b, henc⟩⟩
  · have hkept := command_keeps_events hc h
    exact ⟨.inl hkept, fun hne => absurd hkept hne⟩
  · obtain ⟨hkept, _⟩ := control_changes hcontrol h
    exact ⟨.inl hkept, fun hne => absurd hkept hne⟩

/-- A command, accepted or refused, can only set `REJECT`, and it never forgets the route (R189, R206). -/
theorem command_changes {i : Instr} {c : Command} {s t : State} (hi : encode i = .command c)
    (h : exec i s = .next t) :
    (t.enc.estat = s.enc.estat ∨ t.enc.estat = s.enc.estat ||| 0x01#8)
    ∧ (t.enc.lastIdx = s.enc.lastIdx ∨ 0 ≤ t.enc.lastIdx) := by
  rcases exec_command hi s with e | ⟨port, _, _, hport, _, e⟩ <;> rw [e] at h <;> cases h
  · exact ⟨.inr rfl, .inl rfl⟩
  · refine ⟨.inl rfl, ?_⟩
    by_cases hann : announces s port = true
    · have hmany := ((announces_iff s port).1 hann).1
      have hidx : (0 : Int) ≤ (port : Int) - 1 := by omega
      exact .inr (by simpa [sent, hann] using hidx)
    · exact .inl (if_neg hann)

/-! ### Sticky bits -/

/-- Setting bits of a register keeps every bit that was set. -/
theorem and_or_self_left (x mask : Byte) : x &&& (x ||| mask) = x := by
  ext i hi
  simp only [BitVec.getElem_and, BitVec.getElem_or]
  cases x[i] <;> simp

/-- Settles O50. Every instruction but the clear event and the reset of an agent keeps the agent's status
register or sets one bit more. -/
theorem statusBitsAreSticky : Obligations.StatusBitsAreSticky := by
  intro i s t h
  rcases instr_cases i with ⟨b, rfl, _⟩ | ⟨c, hc⟩ | hcontrol
  · obtain ⟨hkept, _, _⟩ := (agentsWriteOnlyTheirOwnState _ s t h).1 (agent_decodeWire b)
    refine ⟨fun _ _ => ?_, fun _ _ => by rw [hkept, BitVec.and_self]⟩
    obtain ⟨hstatus, hdata⟩ := wireByteSetsAtMostOneStatusBit s t b h
    rcases Nat.lt_or_ge b.toNat 0x80 with hb | hb
    · rcases hdata hb with e | e | e <;> rw [e]
      · exact BitVec.and_self
      · exact and_or_self_left _ _
      · exact and_or_self_left _ _
    · rcases hstatus hb with e | e <;> rw [e]
      · exact BitVec.and_self
      · exact and_or_self_left _ _
  · obtain ⟨hestat, _⟩ := command_changes hc h
    refine ⟨fun _ _ => by rw [command_keeps_dec hc h, BitVec.and_self], fun _ _ => ?_⟩
    rcases hestat with e | e <;> rw [e]
    · exact BitVec.and_self
    · exact and_or_self_left _ _
  · obtain ⟨_, hdstat, hestat, _⟩ := control_changes hcontrol h
    exact ⟨fun hclear hreset => by rw [hdstat hclear hreset, BitVec.and_self],
      fun hclear hreset => by rw [hestat hclear hreset, BitVec.and_self]⟩

/-- Settles O52. -/
theorem routeIsForgottenOnlyByFourEvents : Obligations.RouteIsForgottenOnlyByFourEvents := by
  intro i s t h hknown hforgotten
  rcases instr_cases i with ⟨b, rfl, _⟩ | ⟨c, hc⟩ | hcontrol
  · obtain ⟨hkept, _, _⟩ := (agentsWriteOnlyTheirOwnState _ s t h).1 (agent_decodeWire b)
    exact absurd (hkept ▸ hforgotten) hknown
  · obtain ⟨_, hidx⟩ := command_changes hc h
    omega
  · obtain ⟨_, _, _, hidx⟩ := control_changes hcontrol h
    by_contra hother
    exact hknown (hidx hother ▸ hforgotten)

end Sys2Proof.Machine
end

section
/-! PROOFS. The invariant of a safe run (spec/10_state.md R36 and the legal register values): its parts by
name, what every operation does from a state that meets it, and that every step keeps it. -/

namespace Sys2Proof.Machine

/-! ### The parts of the invariant -/

section Parts

variable {cfg : Config} {d : DecState} (h : d.Inv cfg)
include h

theorem DecState.Inv.pos_lt_cap : d.pos < cfg.sysexCap := by
  obtain ⟨hpos, _⟩ := h; exact hpos

theorem DecState.Inv.running (hrs : d.rs ≠ 0x00#8) : 1 ≤ d.pos ∧ Memory.read d.buf 0 = d.rs := by
  obtain ⟨_, hrun, _⟩ := h; exact hrun hrs

theorem DecState.Inv.head_legal (hpos : 1 ≤ d.pos) :
    0x80 ≤ (Memory.read d.buf 0).toNat ∧ (Memory.read d.buf 0).toNat ≤ 0xF5 := by
  obtain ⟨_, _, hhead, _⟩ := h
  obtain ⟨hlo, hhi, _⟩ := hhead hpos
  exact ⟨hlo, hhi⟩

theorem DecState.Inv.exp_eq (hpos : 1 ≤ d.pos) :
    frameLength cfg (Memory.read d.buf 0) = some d.exp := by
  obtain ⟨_, _, hhead, _⟩ := h
  obtain ⟨_, _, hexp⟩ := hhead hpos
  exact hexp

theorem DecState.Inv.not_running_of_system (hpos : 1 ≤ d.pos)
    (hsys : 0xF0 ≤ (Memory.read d.buf 0).toNat) : d.rs = 0x00#8 := by
  obtain ⟨_, _, _, hrs, _⟩ := h; exact hrs hpos hsys

theorem DecState.Inv.pos_lt_exp (hpos : 1 ≤ d.pos) : d.pos < d.exp := by
  obtain ⟨_, _, _, _, hexp, _⟩ := h; exact hexp hpos

theorem DecState.Inv.inPort_legal : 1 ≤ d.inPort ∧ d.inPort ≤ cfg.nPorts := by
  obtain ⟨_, _, _, _, _, hport, _⟩ := h; exact hport

theorem DecState.Inv.rs_legal : d.rs = 0x00#8 ∨ isChannelVoice d.rs := by
  obtain ⟨_, _, _, _, _, _, hrs, _⟩ := h; exact hrs

theorem DecState.Inv.dstat_legal : d.dstat &&& 0xF8#8 = 0x00#8 := by
  obtain ⟨_, _, _, _, _, _, _, hdstat, _⟩ := h; exact hdstat

theorem DecState.Inv.data_legal : ∀ a < d.pos, 1 ≤ a → isData (Memory.read d.buf a) := by
  obtain ⟨_, _, _, _, _, _, _, _, hdata, _⟩ := h; exact hdata

theorem DecState.Inv.buf_wf : Memory.wf d.buf := by
  obtain ⟨_, _, _, _, _, _, _, _, _, hwf, _⟩ := h; exact hwf

theorem DecState.Inv.buf_bounded : ∀ c ∈ d.buf, c.1 < cfg.sysexCap := by
  obtain ⟨_, _, _, _, _, _, _, _, _, _, hbuf⟩ := h; exact hbuf

/-- Within the buffer a byte can be stored. -/
theorem DecState.Inv.write_legal {i : Nat} (b : Byte) (hi : i < cfg.sysexCap) :
    Memory.wf (Memory.write d.buf i b) ∧ ∀ c ∈ Memory.write d.buf i b, c.1 < cfg.sysexCap := by
  refine ⟨Memory.wf_write i b h.buf_wf, fun c hc => ?_⟩
  rcases Memory.mem_write hc with rfl | hc
  · exact hi
  · exact h.buf_bounded c hc

end Parts

/-! ### Frame lengths -/

/-- Every frame that takes data bytes is between 2 and `SYSEX_CAP` bytes long (R72). -/
theorem frameLength_range {cfg : Config} {b : Byte} {n : Nat} (h : frameLength cfg b = some n)
    (hb : b.toNat ≤ 0xF5) : 2 ≤ n ∧ n ≤ cfg.sysexCap := by
  have hcap := Config.three_le_sysexCap cfg
  simp only [frameLength] at h
  split_ifs at h <;> cases h <;> omega

/-- Every frame but SysEx is at most 3 bytes long (R72). -/
theorem frameLength_le_three {cfg : Config} {b : Byte} {n : Nat} (h : frameLength cfg b = some n)
    (hb : b ≠ 0xF0#8) : n ≤ 3 := by
  have hb' : b.toNat ≠ 0xF0 := fun h => hb (BitVec.eq_of_toNat_eq h)
  simp only [frameLength] at h
  split_ifs at h <;> cases h <;> omega

/-- A SysEx frame is bounded by the buffer (R72). -/
theorem frameLength_sysex (cfg : Config) : frameLength cfg 0xF0#8 = some cfg.sysexCap := rfl

/-- The length of a channel-voice frame (R72, R102). -/
theorem frameLength_channelVoice (cfg : Config) {b : Byte} (h : isChannelVoice b) :
    frameLength cfg b = some (cvLength (highNibble b)) := by
  have hall : ∀ b : Byte, isChannelVoice b →
      (if b.toNat < 0x80 then none else if b.toNat ≤ 0xBF then some 3
        else if b.toNat ≤ 0xDF then some 2 else some 3) = some (cvLength (highNibble b)) := by decide
  rw [← hall b h]
  obtain ⟨_, hhi⟩ := h
  simp only [frameLength]
  split_ifs <;> rfl

/-- The length of a system-common frame (R72, R119). -/
theorem frameLength_systemCommon (cfg : Config) {b : Byte} (hlo : 0xF0 < b.toNat) (hhi : b.toNat ≤ 0xF5) :
    frameLength cfg b = some (scLength b) := by
  have : b = 0xF1#8 ∨ b = 0xF2#8 ∨ b = 0xF3#8 ∨ b = 0xF4#8 ∨ b = 0xF5#8 := by revert b; decide
  rcases this with rfl | rfl | rfl | rfl | rfl <;> rfl

/-! ### The registers that keep the invariant -/

/-- Setting a status bit that is not reserved keeps the reserved bits 0 (R28, R32). -/
theorem reserved_or {x mask reserved : Byte} (hx : x &&& reserved = 0x00#8)
    (hmask : mask &&& reserved = 0x00#8) : (x ||| mask) &&& reserved = 0x00#8 := by
  rw [BitVec.and_comm, BitVec.and_or_distrib_left, BitVec.and_comm reserved, hx,
    BitVec.and_comm reserved, hmask, BitVec.or_self]

/-- No frame open and no running status: what is left of the invariant. -/
theorem DecState.inv_of_closed {cfg : Config} {d : DecState} (hrs : d.rs = 0x00#8) (hpos : d.pos = 0)
    (hport : 1 ≤ d.inPort ∧ d.inPort ≤ cfg.nPorts) (hdstat : d.dstat &&& 0xF8#8 = 0x00#8)
    (hbuf : Memory.wf d.buf ∧ ∀ c ∈ d.buf, c.1 < cfg.sysexCap) : d.Inv cfg := by
  have hcap := Config.three_le_sysexCap cfg
  refine ⟨by omega, fun hne => absurd hrs hne, ?_, ?_, ?_, hport, .inl hrs, hdstat, ?_, hbuf⟩ <;>
    omega

/-- A frame of one byte has been opened by a status byte that takes data bytes (R102, R119, R140). -/
theorem DecState.Inv.opened {cfg : Config} {d : DecState} (h : d.Inv cfg) {b rs dstat : Byte}
    {length : Nat} (hb : 0x80 ≤ b.toNat ∧ b.toNat ≤ 0xF5) (hlen : frameLength cfg b = some length)
    (hrs : rs = if b.toNat < 0xF0 then b else 0x00#8) (hdstat : dstat &&& 0xF8#8 = 0x00#8) :
    DecState.Inv cfg { rs := rs, buf := Memory.write d.buf 0 b, pos := 1, exp := length
                       inPort := d.inPort, dstat := dstat } := by
  have hcap := Config.three_le_sysexCap cfg
  have hread := Memory.read_write_same d.buf 0 b
  obtain ⟨hlo, hhi⟩ := hb
  obtain ⟨htwo, _⟩ := frameLength_range hlen hhi
  refine ⟨by show 1 < _; omega, fun hne => ?_, fun _ => ?_, fun _ hsys => ?_, fun _ => htwo,
    h.inPort_legal, ?_, hdstat, fun a ha hone => ?_, h.write_legal b (by omega)⟩
  · simp only [hread]
    by_cases hcv : b.toNat < 0xF0
    · exact ⟨Nat.le_refl 1, by rw [hrs, if_pos hcv]⟩
    · exact absurd (hrs.trans (if_neg hcv)) hne
  · simp only [hread]
    exact ⟨hlo, hhi, hlen⟩
  · simp only [hread] at hsys
    exact hrs.trans (if_neg (by omega))
  · by_cases hcv : b.toNat < 0xF0
    · exact .inr ((hrs.trans (if_pos hcv)).symm ▸ ⟨hlo, Nat.le_of_lt_succ hcv⟩)
    · exact .inl (hrs.trans (if_neg hcv))
  · have : a < 1 := ha
    omega

/-- A data byte has been stored in the open frame, which goes on or starts again with its status byte
(R126, R127). -/
theorem DecState.Inv.stored {cfg : Config} {d : DecState} (h : d.Inv cfg) {b : Byte} (hb : isData b)
    (hpos : 1 ≤ d.pos) {next : Nat} (hone : 1 ≤ next) (hnext : next ≤ d.pos + 1)
    (hexp : next < d.exp) :
    DecState.Inv cfg { d with buf := Memory.write d.buf d.pos b, pos := next } := by
  have hhead : Memory.read (Memory.write d.buf d.pos b) 0 = Memory.read d.buf 0 :=
    Memory.read_write_ne _ _ (by omega)
  obtain ⟨hlo, hhi⟩ := h.head_legal hpos
  obtain ⟨_, hcap⟩ := frameLength_range (h.exp_eq hpos) hhi
  refine ⟨by show next < _; omega, fun hrs => ?_, fun _ => ?_, fun _ hsys => ?_, fun _ => hexp,
    h.inPort_legal, h.rs_legal, h.dstat_legal, fun a ha hone => ?_, h.write_legal b h.pos_lt_cap⟩
  · simp only [hhead]
    obtain ⟨_, hread⟩ := h.running hrs
    exact ⟨hone, hread⟩
  · simp only [hhead]
    exact ⟨hlo, hhi, h.exp_eq hpos⟩
  · simp only [hhead] at hsys
    exact h.not_running_of_system hpos hsys
  · by_cases hlast : a = d.pos
    · rw [hlast]
      simpa only [Memory.read_write_same] using hb
    · have ha' : a < next := ha
      simp only [Memory.read_write_ne _ _ hlast]
      exact h.data_legal a (by omega) hone

/-! ### Wire bytes from a state that meets the invariant -/

/-- The meaning of a wire byte, with the status bytes `80`..`F5` as the one class that opens a frame. -/
theorem exec_wire_by_frame (b : Byte) :
    (isRealTime b ∧ ∀ s, exec (decodeWire b) s = .next (realTime b s))
    ∨ ((0x80 ≤ b.toNat ∧ b.toNat ≤ 0xF5) ∧ ∀ s, ∃ length, frameLength s.cfg b = some length
        ∧ exec (decodeWire b) s =
            .next (frameOpened (if b.toNat < 0xF0 then b else 0x00#8) b length s))
    ∨ (b = 0xF6#8 ∧ ∀ s, exec (decodeWire b) s = .next (scStatus 0xF6#8 s))
    ∨ (b = 0xF7#8 ∧ ∀ s, exec (decodeWire b) s = eox s)
    ∨ (isData b ∧ ∀ s, exec (decodeWire b) s = dataByte b s) := by
  rcases exec_wire b with ⟨hrt, e⟩ | ⟨hcv, e⟩ | ⟨rfl, e⟩ | ⟨hlo, hhi, e⟩ | ⟨h7, e⟩ | ⟨hdata, e⟩
  · exact .inl ⟨hrt, e⟩
  · have hrs : (if b.toNat < 0xF0 then b else 0x00#8) = b := if_pos (by omega)
    refine .inr (.inl ⟨by omega, fun s => ⟨_, frameLength_channelVoice s.cfg hcv, ?_⟩⟩)
    rw [e, cvStatus_spec, byteOf_nibbles, hrs, frameOpened]
  · refine .inr (.inl ⟨by decide, fun s => ⟨_, frameLength_sysex s.cfg, ?_⟩⟩)
    rw [e, sysexStart_spec]
    rfl
  · by_cases h6 : b = 0xF6#8
    · exact .inr (.inr (.inl ⟨h6, fun s => by rw [e, h6]⟩))
    · have h6' : b.toNat ≠ 0xF6 := fun h => h6 (BitVec.eq_of_toNat_eq h)
      have hrs : (if b.toNat < 0xF0 then b else 0x00#8) = 0x00#8 := if_neg (by omega)
      refine .inr (.inl ⟨by omega, fun s =>
        ⟨_, frameLength_systemCommon s.cfg hlo (by omega), ?_⟩⟩)
      rw [e, scStatus_spec h6, hrs, frameOpened]
  · exact .inr (.inr (.inr (.inl ⟨h7, e⟩)))
  · exact .inr (.inr (.inr (.inr ⟨hdata, e⟩)))

/-- `s` once the byte `b` has filled the buffer (R144): the truncated frame is emitted and dropped. -/
def frameTruncated (b : Byte) (s : State) : State :=
  { s with
    dec := { s.dec with
      buf := Memory.write s.dec.buf s.dec.pos b, pos := 0, dstat := s.dec.dstat ||| 0x01#8 }
    events := s.events ++
      [sxEvent (Memory.readFrame s.dec.buf s.dec.pos ++ [b]) false s.dec.inPort] }

/-- Everything a data byte can do from a state that meets the invariant: the open frame, if there is one,
is extended, or it is full and its status byte says what is put out. -/
theorem dataByte_cases_of_inv {s : State} (b : Byte) (h : s.dec.Inv s.cfg) :
    (s.dec.rs = 0x00#8 ∧ s.dec.pos = 0 ∧ dataByte b s = .next s)
    ∨ (1 ≤ s.dec.pos ∧ s.dec.pos + 1 < s.dec.exp ∧ dataByte b s = .next (appended b s))
    ∨ (1 ≤ s.dec.pos ∧ s.dec.pos + 1 = s.dec.exp ∧ Memory.read s.dec.buf 0 = 0xF0#8
        ∧ dataByte b s = .next (frameTruncated b s))
    ∨ (1 ≤ s.dec.pos ∧ s.dec.pos + 1 = s.dec.exp ∧ isChannelVoice (Memory.read s.dec.buf 0)
        ∧ dataByte b s = .next (frameCompleted b (if s.dec.rs ≠ 0x00#8 then 1 else 0)
          (cvEvent (Memory.readFrame s.dec.buf s.dec.pos ++ [b]) s.dec.inPort) s))
    ∨ (1 ≤ s.dec.pos ∧ s.dec.pos + 1 = s.dec.exp ∧ 0xF0 < (Memory.read s.dec.buf 0).toNat
        ∧ (Memory.read s.dec.buf 0).toNat < 0xF5 ∧ dataByte b s = .next (frameCompleted b 0
          (scEvent (Memory.readFrame s.dec.buf s.dec.pos ++ [b]) s.dec.inPort) s))
    ∨ (Memory.read s.dec.buf 0 = 0xF5#8 ∧ s.dec.pos = 1 ∧ s.dec.exp = 2
        ∧ dataByte b s = .next (portSelected b s (resolvePort s.cfg b))) := by
  have hframe : s.dec.rs ≠ 0x00#8 ∨ s.dec.pos ≠ 0 → 1 ≤ s.dec.pos := fun hor =>
    hor.elim (fun hrs => (h.running hrs).1) Nat.one_le_iff_ne_zero.2
  have hsysex : s.dec.sxOpen = true → 1 ≤ s.dec.pos ∧ Memory.read s.dec.buf 0 = 0xF0#8
      ∧ s.dec.exp = s.cfg.sysexCap := fun hopen => by
    obtain ⟨hpos, hhead⟩ := s.dec.sxOpen_iff.1 hopen
    have hexp := h.exp_eq hpos
    rw [hhead, frameLength_sysex] at hexp
    exact ⟨hpos, hhead, (Option.some.inj hexp).symm⟩
  rcases dataByte_cases b s with ⟨hrs, _, hpos, e⟩ | ⟨hopen, hmore, e⟩ | ⟨hopen, hfull, e⟩ |
    ⟨_, hor, _, hmore, e⟩ | ⟨hclosed, hor, _, hlast, _⟩ | ⟨hbeyond, _⟩
  · exact .inl ⟨hrs, hpos, e⟩
  · obtain ⟨hpos, _, hexp⟩ := hsysex hopen
    exact .inr (.inl ⟨hpos, by omega, e⟩)
  · obtain ⟨hpos, hhead, hexp⟩ := hsysex hopen
    exact .inr (.inr (.inl ⟨hpos, by omega, hhead, e⟩))
  · have hpos := hframe hor
    have hlt := h.pos_lt_exp hpos
    exact .inr (.inl ⟨hpos, by omega, e⟩)
  · have hpos := hframe hor
    have hexp := h.exp_eq hpos
    obtain ⟨hlo, hhi⟩ := h.head_legal hpos
    have h0 : Memory.read s.dec.buf 0 ≠ 0xF0#8 := fun hhead =>
      absurd (s.dec.sxOpen_iff.2 ⟨hpos, hhead⟩) (Bool.eq_false_iff.1 hclosed)
    have hlen := frameLength_le_three hexp h0
    by_cases hcv : (Memory.read s.dec.buf 0).toNat ≤ 0xEF
    · exact .inr (.inr (.inr (.inl ⟨hpos, hlast, ⟨hlo, hcv⟩,
        dataByte_completes_channelVoice b hcv hpos hlast hlen⟩)))
    · have h0' : (Memory.read s.dec.buf 0).toNat ≠ 0xF0 := fun h => h0 (BitVec.eq_of_toNat_eq h)
      have hrs := h.not_running_of_system hpos (by omega)
      by_cases h5 : Memory.read s.dec.buf 0 = 0xF5#8
      · rw [h5] at hexp
        have htwo : s.dec.exp = 2 := (Option.some.inj hexp).symm
        have hone : s.dec.pos = 1 := by omega
        exact .inr (.inr (.inr (.inr (.inr ⟨h5, hone, htwo, dataByte_portSelect b hrs h5 hone htwo⟩))))
      · have h5' : (Memory.read s.dec.buf 0).toNat ≠ 0xF5 := fun h => h5 (BitVec.eq_of_toNat_eq h)
        exact .inr (.inr (.inr (.inr (.inl ⟨hpos, hlast, by omega, by omega,
          dataByte_completes_systemCommon b hrs (by omega) h5 hpos hlast hlen⟩))))
  · have hroom := h.pos_lt_cap
    omega

end Sys2Proof.Machine
end

section
/-! PROOFS. The invariant is met at reset and kept by every step, and a step from a state that meets it
completes (spec/10_state.md R36, spec/60_exceptions.md R240). -/

namespace Sys2Proof.Machine

/-! ### At reset -/

theorem DecState.reset_inv (cfg : Config) : DecState.reset.Inv cfg :=
  DecState.inv_of_closed rfl rfl ⟨Nat.le_refl 1, Config.one_le_nPorts cfg⟩ rfl
    ⟨Memory.wf_nil, fun _ hc => absurd hc List.not_mem_nil⟩

theorem EncState.reset_inv (cfg : Config) : EncState.reset.Inv cfg := by
  have hports := Config.one_le_nPorts cfg
  refine ⟨.inl rfl, ⟨Int.le_refl (-1), ?_⟩, rfl⟩
  show (-1 : Int) ≤ _
  omega

/-- Settles O44. `State.reset` is the reset state of one configuration. -/
theorem resetMeetsInvariant : Obligations.ResetMeetsInvariant :=
  have hreset : ∀ c : Config, (State.resetWith c).Inv :=
    fun c => ⟨DecState.reset_inv c, EncState.reset_inv c⟩
  ⟨hreset Config.standard, hreset⟩

/-! ### DEC -/

/-- The frame is dropped with running status, and bits that are not reserved may be set (R125, R142 to
R144, R203, R221). -/
theorem DecState.Inv.closed {cfg : Config} {d d' : DecState} (h : d.Inv cfg) (hrs : d'.rs = 0x00#8)
    (hpos : d'.pos = 0) (hport : d'.inPort = d.inPort)
    (hdstat : ∃ mask, mask &&& 0xF8#8 = 0x00#8 ∧ d'.dstat = d.dstat ||| mask)
    (hbuf : d'.buf = d.buf ∨ ∃ b, d'.buf = Memory.write d.buf d.pos b) : d'.Inv cfg := by
  obtain ⟨mask, hmask, hdstat⟩ := hdstat
  refine DecState.inv_of_closed hrs hpos (hport ▸ h.inPort_legal)
    (hdstat ▸ reserved_or h.dstat_legal hmask) ?_
  rcases hbuf with hbuf | ⟨b, hbuf⟩
  · exact hbuf ▸ ⟨h.buf_wf, h.buf_bounded⟩
  · exact hbuf ▸ h.write_legal b h.pos_lt_cap

/-- A data byte keeps the invariant. -/
theorem dataByte_keeps_inv {s t : State} {b : Byte} (hb : isData b) (h : s.dec.Inv s.cfg)
    (ht : dataByte b s = .next t) : t.dec.Inv s.cfg := by
  have hkept : ∃ mask : Byte, mask &&& 0xF8#8 = 0x00#8 ∧ s.dec.dstat = s.dec.dstat ||| mask :=
    ⟨0x00#8, rfl, BitVec.or_zero.symm⟩
  rcases dataByte_cases_of_inv b h with ⟨_, _, e⟩ | ⟨hpos, hmore, e⟩ | ⟨hpos, _, hhead, e⟩ |
    ⟨hpos, hlast, _, e⟩ | ⟨hpos, _, hhead, _, e⟩ | ⟨hhead, hpos, _, e⟩ <;> rw [e] at ht <;> cases ht
  · exact h
  · exact h.stored hb hpos (by omega) (Nat.le_refl _) hmore
  · have hrs := h.not_running_of_system hpos (by rw [hhead]; decide)
    exact h.closed hrs rfl rfl ⟨0x01#8, rfl, rfl⟩ (.inr ⟨b, rfl⟩)
  · by_cases hrs : s.dec.rs ≠ 0x00#8
    · rw [if_pos hrs]
      exact h.stored hb hpos (Nat.le_refl 1) (by omega) (by omega)
    · rw [if_neg hrs]
      exact h.closed (not_not.1 hrs) rfl rfl hkept (.inr ⟨b, rfl⟩)
  · have hrs := h.not_running_of_system hpos (by omega)
    exact h.closed hrs rfl rfl hkept (.inr ⟨b, rfl⟩)
  · have hrs := h.not_running_of_system (by omega) (by rw [hhead]; decide)
    have hbuf := h.write_legal (i := 1) b (hpos ▸ h.pos_lt_cap)
    cases hport : resolvePort s.cfg b with
    | none => exact h.closed hrs rfl rfl ⟨0x04#8, rfl, rfl⟩ (.inr ⟨b, by rw [hpos]; rfl⟩)
    | some p => exact DecState.inv_of_closed hrs rfl (resolvePort_range hport) h.dstat_legal hbuf

/-- A wire byte keeps the invariant. -/
theorem wire_keeps_inv {s t : State} {b : Byte} (h : s.dec.Inv s.cfg)
    (ht : exec (decodeWire b) s = .next t) : t.dec.Inv s.cfg := by
  have habort : (if s.dec.sxOpen then s.dec.dstat ||| 0x02#8 else s.dec.dstat) =
      s.dec.dstat ||| (if s.dec.sxOpen then 0x02#8 else 0x00#8) := by
    cases s.dec.sxOpen
    · exact BitVec.or_zero.symm
    · rfl
  have hmask : (if s.dec.sxOpen then 0x02#8 else 0x00#8) &&& 0xF8#8 = 0x00#8 := by
    cases s.dec.sxOpen <;> rfl
  rcases exec_wire_by_frame b with ⟨_, e⟩ | ⟨hb, e⟩ | ⟨_, e⟩ | ⟨_, e⟩ | ⟨hb, e⟩
  · rw [e, realTime_spec] at ht
    cases ht
    exact h
  · obtain ⟨length, hlen, e⟩ := e s
    rw [e] at ht
    cases ht
    exact h.opened hb hlen rfl (habort ▸ reserved_or h.dstat_legal hmask)
  · rw [e, scStatus_tuneRequest_spec] at ht
    cases ht
    exact h.closed rfl rfl rfl ⟨_, hmask, habort⟩ (.inl rfl)
  · rw [e] at ht
    rcases eox_cases s with ⟨_, _, e⟩ | ⟨_, _, e⟩ | ⟨_, e⟩ <;> rw [e] at ht <;> cases ht
    · exact h.closed rfl rfl rfl ⟨0x00#8, rfl, BitVec.or_zero.symm⟩ (.inr ⟨0xF7#8, rfl⟩)
    · exact h.closed rfl rfl rfl ⟨0x00#8, rfl, BitVec.or_zero.symm⟩ (.inl rfl)
  · rw [e] at ht
    exact dataByte_keeps_inv hb h ht

/-! ### ENC -/

/-- A refused command keeps the invariant. -/
theorem rejected_keeps_inv {s : State} (h : s.Inv) : (rejected s).Inv := by
  obtain ⟨hdec, hrs, hidx, hestat⟩ := h
  exact ⟨hdec, hrs, hidx, reserved_or hestat rfl⟩

/-- What the command's own bytes find in `rs_out` is legal, announced or not (R208). -/
theorem routeRs_legal {s : State} (h : s.enc.Inv s.cfg) (port : Nat) :
    routeRs s port = 0x00#8 ∨ isChannelVoice (routeRs s port) := by
  obtain ⟨hrs, _⟩ := h
  unfold routeRs
  cases announces s port
  · exact hrs
  · exact .inl rfl

/-- An accepted command keeps the invariant. -/
theorem sent_keeps_inv {s : State} (h : s.Inv) {port : Nat} {bytes : List Byte} {rs : Byte}
    (hport : s.cfg.nPorts = 1 ∨ (1 ≤ port ∧ port ≤ s.cfg.nPorts))
    (hrs : rs = 0x00#8 ∨ isChannelVoice rs ∨ rs = routeRs s port) : (sent s port bytes rs).Inv := by
  have hroute := routeRs_legal h.2 port
  obtain ⟨hdec, _, hidx, hestat⟩ := h
  refine ⟨hdec, ?_, ?_, hestat⟩
  · rcases hrs with hrs | hrs | rfl
    · exact .inl hrs
    · exact .inr hrs
    · exact hroute
  · by_cases hann : announces s port = true
    · have hmany := ((announces_iff s port).1 hann).1
      simp only [sent, if_pos hann]
      omega
    · simp only [sent, if_neg hann]
      exact hidx

/-- A command, accepted or refused, keeps the invariant. -/
theorem command_keeps_inv {i : Instr} {c : Command} {s t : State} (hi : encode i = .command c)
    (h : s.Inv) (ht : exec i s = .next t) : t.Inv := by
  rcases exec_command hi s with e | ⟨port, bytes, rs, hport, hrs, e⟩ <;> rw [e] at ht <;> cases ht
  · exact rejected_keeps_inv h
  · exact sent_keeps_inv h hport hrs

/-- A control event keeps the invariant: it puts an agent in its reset state, or writes registers with
legal values. -/
theorem control_keeps_inv {i : Instr} {s t : State}
    (hi : i ∈ [Instr.ctlDecReset, .ctlDecRxError, .ctlDecInRouteReset, .ctlDecDstatClear,
      .ctlDecStatusRead, .ctlEncReset, .ctlEncWriteError, .ctlEncIdleExpired, .ctlEncSubsEdge,
      .ctlEncEstatClear, .ctlEncStatusRead])
    (h : s.Inv) (ht : exec i s = .next t) : t.Inv := by
  have hports := Config.one_le_nPorts s.cfg
  obtain ⟨hd, he⟩ := h
  have ⟨hrs, hidx, hestat⟩ := he
  have hcleared : ∀ mask : Byte, 0x00#8 &&& mask = 0x00#8 := fun _ => BitVec.zero_and
  have hunknown : (-1 : Int) ≤ -1 ∧ (-1 : Int) ≤ (s.cfg.nPorts : Int) - 1 := by omega
  simp only [List.mem_cons, List.not_mem_nil, or_false] at hi
  rcases hi with rfl | rfl | rfl | rfl | rfl | rfl | rfl | rfl | rfl | rfl | rfl <;> cases ht
  · exact ⟨DecState.reset_inv s.cfg, he⟩
  · exact ⟨hd.closed rfl rfl rfl ⟨0x00#8, rfl, BitVec.or_zero.symm⟩ (.inl rfl), he⟩
  · obtain ⟨hpos, hrun, hhead, hsys, hexp, _, hrest⟩ := hd
    exact ⟨⟨hpos, hrun, hhead, hsys, hexp, ⟨Nat.le_refl 1, hports⟩, hrest⟩, he⟩
  · obtain ⟨hpos, hrun, hhead, hsys, hexp, hport, hrs, _, hrest⟩ := hd
    exact ⟨⟨hpos, hrun, hhead, hsys, hexp, hport, hrs, hcleared _, hrest⟩, he⟩
  · exact ⟨hd, he⟩
  · exact ⟨hd, EncState.reset_inv s.cfg⟩
  · exact ⟨hd, .inl rfl, hunknown, hestat⟩
  · exact ⟨hd, hrs, hunknown, hestat⟩
  · exact ⟨hd, hrs, hunknown, hestat⟩
  · exact ⟨hd, hrs, hidx, hcleared _⟩
  · exact ⟨hd, he⟩

/-! ### Instructions and steps -/

/-- Every instruction keeps the invariant. -/
theorem exec_keeps_inv {i : Instr} {s t : State} (h : s.Inv) (ht : exec i s = .next t) : t.Inv := by
  rcases instr_cases i with ⟨b, rfl, _⟩ | ⟨c, hc⟩ | hcontrol
  · obtain ⟨hcfg, _⟩ := configurationAndInputsAreKept _ s t ht
    obtain ⟨hkept, _⟩ := (agentsWriteOnlyTheirOwnState _ s t ht).1 (agent_decodeWire b)
    obtain ⟨hd, he⟩ := h
    exact ⟨hcfg ▸ wire_keeps_inv hd ht, by rw [hcfg, hkept]; exact he⟩
  · exact command_keeps_inv hc h ht
  · exact control_keeps_inv hcontrol h ht

/-- Everything a step can do: nothing, without an input; run the next input's instruction; or reject a
command whose selector is not listed. -/
theorem step_cases {s t : State} (h : step s = .next t) :
    t = s ∨ ∃ rest, (∃ i, exec i { s with inputs := rest } = .next t)
      ∨ t = rejected { s with inputs := rest } := by
  unfold step at h
  split at h
  · cases h
    exact .inl rfl
  · split at h
    · exact .inr ⟨_, .inl ⟨_, h⟩⟩
    · cases h
      exact .inr ⟨_, .inr rfl⟩
    · cases h
    · cases h

/-- Settles O45. -/
theorem stepKeepsInvariant : Obligations.StepKeepsInvariant := by
  intro s t h ht
  rcases step_cases ht with rfl | ⟨rest, ⟨i, ht⟩ | rfl⟩
  · exact h
  · exact exec_keeps_inv (s := { s with inputs := rest }) h ht
  · exact rejected_keeps_inv (s := { s with inputs := rest }) h

/-! ### Every input completes -/

/-- Every wire byte completes from a state that meets the invariant: there is room in the buffer. -/
theorem wire_completes_of_inv {s : State} (b : Byte) (h : s.dec.Inv s.cfg) :
    ∃ t, exec (decodeWire b) s = .next t := by
  rcases exec_wire_by_frame b with ⟨_, e⟩ | ⟨_, e⟩ | ⟨_, e⟩ | ⟨_, e⟩ | ⟨_, e⟩
  · exact ⟨_, e s⟩
  · obtain ⟨_, _, e⟩ := e s
    exact ⟨_, e⟩
  · exact ⟨_, e s⟩
  · rw [e]
    rcases eox_cases s with ⟨_, _, e⟩ | ⟨_, hbeyond, _⟩ | ⟨_, e⟩
    · exact ⟨_, e⟩
    · exact absurd h.pos_lt_cap (Nat.not_lt.2 hbeyond)
    · exact ⟨_, e⟩
  · rw [e]
    rcases dataByte_cases_of_inv b h with ⟨_, _, e⟩ | ⟨_, _, e⟩ | ⟨_, _, _, e⟩ | ⟨_, _, _, e⟩ |
      ⟨_, _, _, _, e⟩ | ⟨_, _, _, e⟩ <;> exact ⟨_, e⟩

/-- Every instruction completes from a state that meets the invariant. -/
theorem exec_completes_of_inv (i : Instr) {s : State} (h : s.dec.Inv s.cfg) :
    ∃ t, exec i s = .next t := by
  rcases instr_cases i with ⟨b, rfl, _⟩ | ⟨c, hc⟩ | hcontrol
  · exact wire_completes_of_inv b h
  · rcases exec_command hc s with e | ⟨_, _, _, _, _, e⟩ <;> exact ⟨_, e⟩
  · simp only [List.mem_cons, List.not_mem_nil, or_false] at hcontrol
    rcases hcontrol with rfl | rfl | rfl | rfl | rfl | rfl | rfl | rfl | rfl | rfl | rfl <;>
      exact ⟨_, rfl⟩

/-- The control codes R84 gives an event decode to it. -/
theorem decodeControl_of_event (code : BitVec 3) :
    (code.toNat < 5 → (decodeDecControl code).isOk = true)
    ∧ (code.toNat < 6 → (decodeEncControl code).isOk = true) := by
  revert code; decide

theorem exists_of_isOk {o : Except DecodeError Instr} (h : o.isOk = true) : ∃ i, o = .ok i := by
  cases o with
  | ok i => exact ⟨i, rfl⟩
  | error => cases h

/-- An input is an instruction, a command to reject, or a control code that R84 gives no event. -/
theorem decode_cases (input : Input) :
    (∃ i, decode input = .ok i) ∨ (∃ sel, decode input = .error (.unlistedSelector sel))
    ∨ ∃ code : BitVec 3, (input = .decControl code ∧ 5 ≤ code.toNat)
        ∨ (input = .encControl code ∧ 6 ≤ code.toNat) := by
  cases input with
  | wire b => exact .inl ⟨_, rfl⟩
  | command c =>
    rcases decodeCommand_cases c with ⟨_, hd⟩ | ⟨_, i, _, hd, _⟩
    · exact .inr (.inl ⟨_, hd⟩)
    · exact .inl ⟨i, hd⟩
  | decControl code =>
    rcases Nat.lt_or_ge code.toNat 5 with hevent | hreserved
    · exact .inl (exists_of_isOk ((decodeControl_of_event code).1 hevent))
    · exact .inr (.inr ⟨code, .inl ⟨rfl, hreserved⟩⟩)
  | encControl code =>
    rcases Nat.lt_or_ge code.toNat 6 with hevent | hreserved
    · exact .inl (exists_of_isOk ((decodeControl_of_event code).2 hevent))
    · exact .inr (.inr ⟨code, .inr ⟨rfl, hreserved⟩⟩)

/-- Settles O46. -/
theorem everyInputCompletes : Obligations.EveryInputCompletes := by
  intro s h
  obtain ⟨hd, _⟩ := h
  cases hin : s.inputs with
  | nil => exact .inl ⟨s, step_of_no_inputs hin⟩
  | cons input rest =>
    rcases decode_cases input with ⟨i, hi⟩ | ⟨sel, hsel⟩ | ⟨code, hcode⟩
    · rw [step_of_decode_ok hin hi]
      exact .inl (exec_completes_of_inv i (s := { s with inputs := rest }) hd)
    · exact .inl ⟨_, step_of_unlistedSelector hin hsel⟩
    · exact .inr ⟨code, rest, by simpa using hcode⟩

end Sys2Proof.Machine
end

section
/-! PROOFS. The event records (spec/30_encoding.md section 3, spec/40_decoder.md R132 and R133): which
records a step emits from a state that meets the invariant, that they are within range, and their
selectors. -/

namespace Sys2Proof.Machine

/-! ### The records a step can emit -/

/-- A record DEC can emit while `in_port` is `inPort`, by the rule that emits it. A frame is given as its
status byte and its data bytes. -/
inductive Emitted (cfg : Config) (inPort : Nat) : Event → Prop
  /-- R110. -/
  | realTime {b : Byte} (hb : isRealTime b) : Emitted cfg inPort (rtEvent b inPort)
  /-- R125. -/
  | tuneRequest : Emitted cfg inPort (scEvent [0xF6#8] inPort)
  /-- R128. -/
  | channelVoice {status : Byte} {data : List Byte} (hs : isChannelVoice status)
      (hdata : ∀ b ∈ data, isData b) (hlen : data.length < 3) :
      Emitted cfg inPort (cvEvent (status :: data) inPort)
  /-- R129. -/
  | systemCommon {status : Byte} {data : List Byte} (hlo : 0xF0 < status.toNat)
      (hhi : status.toNat < 0xF5) (hdata : ∀ b ∈ data, isData b) (hlen : data.length < 3) :
      Emitted cfg inPort (scEvent (status :: data) inPort)
  /-- R201. -/
  | portSelected {pp : Byte} {port : Nat} (hpp : isData pp) (hport : resolvePort cfg pp = some port) :
      Emitted cfg inPort (psEvent pp port)
  /-- R142. -/
  | sysex {data : List Byte} (hdata : ∀ b ∈ data, isData b) (hlen : data.length + 2 ≤ cfg.sysexCap) :
      Emitted cfg inPort (sxEvent (0xF0#8 :: data ++ [0xF7#8]) true inPort)
  /-- R144. -/
  | truncated {data : List Byte} (hdata : ∀ b ∈ data, isData b) (hlen : data.length + 1 ≤ cfg.sysexCap) :
      Emitted cfg inPort (sxEvent (0xF0#8 :: data) false inPort)

/-- The open frame is its status byte and its data bytes. -/
theorem DecState.Inv.frame_eq {cfg : Config} {d : DecState} (h : d.Inv cfg) (hpos : 1 ≤ d.pos) :
    ∃ data, Memory.readFrame d.buf d.pos = Memory.read d.buf 0 :: data
      ∧ data.length + 1 = d.pos ∧ ∀ b ∈ data, isData b := by
  obtain ⟨n, hn⟩ : ∃ n, d.pos = n + 1 := ⟨d.pos - 1, by omega⟩
  refine ⟨(List.range n).map fun a => Memory.read d.buf (a + 1), ?_, by simp [hn], fun b hb => ?_⟩
  · simp [Memory.readFrame, hn, List.range_succ_eq_map]
  · obtain ⟨a, ha, rfl⟩ := List.mem_map.1 hb
    exact h.data_legal (a + 1) (by rw [hn]; have := List.mem_range.1 ha; omega) (by omega)

/-- A step from `s` to `t` that emits nothing, or one record DEC can emit in `s`. -/
def emitsLegally (s t : State) : Prop :=
  t.events = s.events ∨ ∃ e, t.events = s.events ++ [e] ∧ Emitted s.cfg s.dec.inPort e

/-- The frame a data byte has completed. -/
theorem DecState.Inv.completed_frame {cfg : Config} {d : DecState} (h : d.Inv cfg) (hpos : 1 ≤ d.pos)
    {b : Byte} (hb : isData b) : ∃ data,
      Memory.readFrame d.buf d.pos ++ [b] = Memory.read d.buf 0 :: data
      ∧ data.length = d.pos ∧ ∀ x ∈ data, isData x := by
  obtain ⟨data, hframe, hlen, hdata⟩ := h.frame_eq hpos
  refine ⟨data ++ [b], by rw [hframe, List.cons_append], by simp [hlen], fun x hx => ?_⟩
  rcases List.mem_append.1 hx with hx | hx
  · exact hdata x hx
  · exact List.mem_singleton.1 hx ▸ hb

theorem dataByte_emitsLegally {s t : State} {b : Byte} (hb : isData b) (h : s.dec.Inv s.cfg)
    (ht : dataByte b s = .next t) : emitsLegally s t := by
  rcases dataByte_cases_of_inv b h with ⟨_, _, e⟩ | ⟨_, _, e⟩ | ⟨hpos, _, hhead, e⟩ |
    ⟨hpos, hlast, hhead, e⟩ | ⟨hpos, hlast, hlo, hhi, e⟩ | ⟨_, _, _, e⟩ <;> rw [e] at ht <;> cases ht
  · exact .inl rfl
  · exact .inl rfl
  · obtain ⟨data, hframe, hlen, hdata⟩ := h.completed_frame hpos hb
    refine .inr ⟨_, rfl, ?_⟩
    rw [hframe, hhead]
    have hroom := h.pos_lt_cap
    exact .truncated hdata (by omega)
  · obtain ⟨data, hframe, hlen, hdata⟩ := h.completed_frame hpos hb
    have hexp := frameLength_le_three (h.exp_eq hpos) fun h0 => by
      rw [h0] at hhead; exact absurd hhead (by decide)
    refine .inr ⟨_, rfl, ?_⟩
    rw [hframe]
    exact .channelVoice hhead hdata (by omega)
  · obtain ⟨data, hframe, hlen, hdata⟩ := h.completed_frame hpos hb
    have hexp := frameLength_le_three (h.exp_eq hpos) fun h0 => by
      rw [h0] at hlo; exact absurd hlo (by decide)
    refine .inr ⟨_, rfl, ?_⟩
    rw [hframe]
    exact .systemCommon hlo hhi hdata (by omega)
  · cases hport : resolvePort s.cfg b with
    | none => exact .inl rfl
    | some port => exact .inr ⟨_, rfl, .portSelected hb hport⟩

theorem wire_emitsLegally {s t : State} {b : Byte} (h : s.dec.Inv s.cfg)
    (ht : exec (decodeWire b) s = .next t) : emitsLegally s t := by
  rcases exec_wire_by_frame b with ⟨hrt, e⟩ | ⟨_, e⟩ | ⟨_, e⟩ | ⟨_, e⟩ | ⟨hb, e⟩
  · rw [e, realTime_spec] at ht
    cases ht
    exact .inr ⟨_, rfl, .realTime hrt⟩
  · obtain ⟨_, _, e⟩ := e s
    rw [e] at ht
    cases ht
    exact .inl rfl
  · rw [e, scStatus_tuneRequest_spec] at ht
    cases ht
    exact .inr ⟨_, rfl, .tuneRequest⟩
  · rw [e] at ht
    rcases eox_cases s with ⟨hopen, hroom, e⟩ | ⟨_, _, e⟩ | ⟨_, e⟩ <;> rw [e] at ht <;> cases ht
    · obtain ⟨hpos, hhead⟩ := s.dec.sxOpen_iff.1 hopen
      obtain ⟨data, hframe, hlen, hdata⟩ := h.frame_eq hpos
      refine .inr ⟨_, rfl, ?_⟩
      rw [hframe, hhead]
      exact .sysex hdata (by omega)
    · exact .inl rfl
  · rw [e] at ht
    exact dataByte_emitsLegally hb h ht

/-- Every instruction emits nothing, or one record DEC can emit. -/
theorem exec_emitsLegally {i : Instr} {s t : State} (h : s.Inv) (ht : exec i s = .next t) :
    emitsLegally s t := by
  obtain ⟨hd, _⟩ := h
  rcases instr_cases i with ⟨b, rfl, _⟩ | ⟨c, hc⟩ | hcontrol
  · exact wire_emitsLegally hd ht
  · exact .inl (command_keeps_events hc ht)
  · exact .inl (control_changes hcontrol ht).1

/-- What holds of every record DEC can emit holds of every record of the step. -/
theorem emitsLegally.forall_new {s t : State} (h : emitsLegally s t) {P : Event → Prop}
    (hP : ∀ e, Emitted s.cfg s.dec.inPort e → P e) :
    ∃ new, t.events = s.events ++ new ∧ ∀ e ∈ new, P e := by
  rcases h with hnone | ⟨e, hone, he⟩
  · exact ⟨[], by rw [hnone, List.append_nil], fun _ hmem => absurd hmem List.not_mem_nil⟩
  · exact ⟨[e], hone, fun x hx => List.mem_singleton.1 hx ▸ hP e he⟩

/-! ### Ranges -/

/-- The value of a system-common record that is not biased is a data byte's or 0 (R129, R133). -/
theorem scValue_range {kind : Nibble} (hkind : kind ≠ 0x2#4) (d1 d2 : Data7) :
    0 ≤ scValue kind d1 d2 ∧ scValue kind d1 d2 ≤ 127 := by
  have hd1 := d1.isLt
  rw [scValue, if_neg hkind]
  split_ifs <;> omega

/-- The ranges of a record whose value is 0 by its rule (R110, R142, R144, R201). -/
theorem Event.legal_of_zero {cfg : Config} {e : Event} (hval : e.val = 0)
    (hport : 1 ≤ e.port ∧ e.port ≤ cfg.nPorts) (hhead : e.raw.head? = some e.status)
    (hlen : e.raw.length ≤ cfg.sysexCap)
    (htail : ∀ b ∈ e.raw.tail, isData b ∨ (e.cls = .sx ∧ e.eox = true ∧ b = 0xF7#8)) :
    e.Legal cfg :=
  ⟨fun _ => by omega, fun _ => by omega, hport, hhead, hlen, htail⟩

/-- Every channel-voice record is within range: only PitchBend has a value, which is biased. -/
theorem cvEvent_legal {cfg : Config} {status : Byte} {data : List Byte} {port : Nat}
    (hport : 1 ≤ port ∧ port ≤ cfg.nPorts) (hdata : ∀ b ∈ data, isData b)
    (hlen : data.length + 1 ≤ cfg.sysexCap) : (cvEvent (status :: data) port).Legal cfg := by
  refine ⟨fun hbiased => ?_, fun hplain => ?_, hport, rfl, hlen, fun b hb => .inl (hdata b hb)⟩
  · have hkind : highNibble status = 0xE#4 := by
      rcases hbiased with ⟨_, hkind⟩ | ⟨hcls, _⟩
      · exact hkind
      · cases hcls
    have hval : (cvEvent (status :: data) port).val = unbias14 _ _ := if_pos hkind
    rw [hval]
    exact unbias14_range _ _
  · have hkind : highNibble status ≠ 0xE#4 := fun hkind => hplain (.inl ⟨rfl, hkind⟩)
    have hval : (cvEvent (status :: data) port).val = 0 := if_neg hkind
    omega

/-- Every system-common record is within range: only SongPosition's value is biased. -/
theorem scEvent_legal {cfg : Config} {status : Byte} {data : List Byte} {port : Nat}
    (hport : 1 ≤ port ∧ port ≤ cfg.nPorts) (hdata : ∀ b ∈ data, isData b)
    (hlen : data.length + 1 ≤ cfg.sysexCap) : (scEvent (status :: data) port).Legal cfg := by
  refine ⟨fun hbiased => ?_, fun hplain => ?_, hport, rfl, hlen, fun b hb => .inl (hdata b hb)⟩
  · have hkind : lowNibble status = 0x2#4 := by
      rcases hbiased with ⟨hcls, _⟩ | ⟨_, hkind⟩
      · cases hcls
      · exact hkind
    have hval : (scEvent (status :: data) port).val = unbias14 _ _ := if_pos hkind
    rw [hval]
    exact unbias14_range _ _
  · have hkind : lowNibble status ≠ 0x2#4 := fun hkind => hplain (.inr ⟨rfl, hkind⟩)
    exact scValue_range hkind _ _

/-- Every record DEC can emit is within range. -/
theorem Emitted.legal {cfg : Config} {inPort : Nat} (hinPort : 1 ≤ inPort ∧ inPort ≤ cfg.nPorts)
    {e : Event} (h : Emitted cfg inPort e) : e.Legal cfg := by
  have hcap := Config.three_le_sysexCap cfg
  cases h with
  | realTime hb =>
    refine Event.legal_of_zero rfl hinPort rfl ?_ (fun _ hmem => absurd hmem List.not_mem_nil)
    show 1 ≤ _
    omega
  | tuneRequest =>
    refine scEvent_legal hinPort (fun _ hmem => absurd hmem List.not_mem_nil) ?_
    show 1 ≤ _
    omega
  | channelVoice hs hdata hlen => exact cvEvent_legal hinPort hdata (by omega)
  | systemCommon hlo hhi hdata hlen => exact scEvent_legal hinPort hdata (by omega)
  | portSelected hpp hport =>
    refine Event.legal_of_zero rfl (resolvePort_range hport) rfl ?_
      (fun b hb => .inl (List.mem_singleton.1 hb ▸ hpp))
    show 2 ≤ _
    omega
  | @sysex data hdata hlen =>
    refine Event.legal_of_zero rfl hinPort rfl ?_ fun b hb => ?_
    · show (0xF0#8 :: data ++ [0xF7#8]).length ≤ _
      rw [List.cons_append, List.length_cons, List.length_append]
      exact hlen
    · have hb : b ∈ data ++ [0xF7#8] := hb
      rcases List.mem_append.1 hb with hb | hb
      · exact .inl (hdata b hb)
      · exact .inr ⟨rfl, rfl, List.mem_singleton.1 hb⟩
  | truncated hdata hlen =>
    exact Event.legal_of_zero rfl hinPort rfl hlen fun b hb => .inl (hdata b hb)

/-- Settles O48. -/
theorem emittedRecordsAreLegal : Obligations.EmittedRecordsAreLegal := by
  intro s t h ht
  have hport := h.1.inPort_legal
  have hnone : t.events = s.events → ∃ new, t.events = s.events ++ new ∧ ∀ e ∈ new, e.Legal s.cfg :=
    fun heq => ⟨[], by rw [heq, List.append_nil], fun _ hmem => absurd hmem List.not_mem_nil⟩
  rcases step_cases ht with rfl | ⟨rest, ⟨i, ht⟩ | rfl⟩
  · exact hnone rfl
  · exact (exec_emitsLegally (s := { s with inputs := rest }) h ht).forall_new
      fun _ he => he.legal hport
  · exact hnone rfl

/-! ### Selectors -/

/-- The class codes of R80, and the selector they give with the kind. -/
theorem Event.sel_eq_class_kind (e : Event) :
    e.sel.toNat = (match e.cls with
      | .cv => 0 | .sc => 1 | .rt => 2 | .sx => 3 | .ps => 5) * 16 + e.kind.toNat := by
  rw [Event.sel_toNat]
  cases e.cls <;> rfl

/-- The selector that a status byte gives its record (R80). -/
def statusSel (status : Byte) : Nat :=
  if status.toNat < 0xF0 then status.toNat / 16
  else if status = 0xF0#8 then 0x30
  else if status = 0xF5#8 then 0x55
  else if status.toNat < 0xF8 then 0x10 + status.toNat % 16
  else 0x20 + status.toNat % 16

/-- The selectors of the three classes whose kind is read from the status byte. -/
theorem statusSel_of_class (b : Byte) :
    (isChannelVoice b → (0#3 ++ highNibble b).toNat = statusSel b)
    ∧ (0xF0 < b.toNat → b.toNat < 0xF7 → b ≠ 0xF5#8 → (1#3 ++ lowNibble b).toNat = statusSel b)
    ∧ (isRealTime b → (2#3 ++ lowNibble b).toNat = statusSel b) := by
  revert b; decide

/-- The selector and status byte of every record DEC can emit. -/
theorem Emitted.sel_eq {cfg : Config} {inPort : Nat} {e : Event} (h : Emitted cfg inPort e) :
    0x80 ≤ e.status.toNat ∧ e.sel.toNat = statusSel e.status := by
  cases h with
  | @realTime b hb =>
    obtain ⟨_, _, hrt⟩ := statusSel_of_class b
    exact ⟨by show 0x80 ≤ b.toNat; omega, hrt hb⟩
  | tuneRequest =>
    have hsel : statusSel 0xF6#8 = 0x16 := by decide
    exact ⟨by show 0x80 ≤ (0xF6#8).toNat; decide, by rw [scEvent_sel]; exact hsel.symm⟩
  | @channelVoice status _ hs hdata hlen =>
    obtain ⟨hcv, _, _⟩ := statusSel_of_class status
    exact ⟨hs.1, hcv hs⟩
  | @systemCommon status _ hlo hhi hdata hlen =>
    obtain ⟨_, hsc, _⟩ := statusSel_of_class status
    have h5 : status ≠ 0xF5#8 := fun h => by rw [h] at hhi; exact absurd hhi (by decide)
    exact ⟨by show 0x80 ≤ status.toNat; omega, hsc hlo (by omega) h5⟩
  | portSelected hpp hport => exact ⟨by show 0x80 ≤ (0xF5#8).toNat; decide, by rw [psEvent_sel]; rfl⟩
  | sysex hdata hlen => exact ⟨by show 0x80 ≤ (0xF0#8).toNat; decide, by rw [sxEvent_sel]; rfl⟩
  | truncated hdata hlen => exact ⟨by show 0x80 ≤ (0xF0#8).toNat; decide, by rw [sxEvent_sel]; rfl⟩

/-- Settles O60. -/
theorem emittedSelectorsFollowStatus : Obligations.EmittedSelectorsFollowStatus := by
  intro i s t h ht
  refine (exec_emitsLegally h ht).forall_new fun e he => ?_
  obtain ⟨hstatus, hsel⟩ := he.sel_eq
  exact ⟨e.sel_eq_class_kind, hstatus, hsel⟩

end Sys2Proof.Machine
end

section
/-! PROOFS. A SysEx frame that fits the buffer round trips (spec/41_sysex.md R146), by induction on its
body: the open frame holds `F0` and the data bytes received so far. -/

namespace Sys2Proof.Machine

/-- A decoder takes the first byte and is fed with the others. -/
theorem feed_cons {b : Byte} {rest : List Byte} {s t : State} (h : exec (decodeWire b) s = .next t) :
    feed (b :: rest) s = feed rest t := by
  simp only [feed, h]

theorem feed_singleton {b : Byte} {s t : State} (h : exec (decodeWire b) s = .next t) :
    feed [b] s = .next t := feed_cons h

/-- An open SysEx frame holds `F0` and the bytes `data`. -/
def holdsSysex (data : List Byte) (s : State) : Prop :=
  s.dec.sxOpen = true ∧ s.dec.rs = 0x00#8 ∧ s.dec.pos = data.length + 1
  ∧ Memory.readFrame s.dec.buf s.dec.pos = 0xF0#8 :: data

/-- `F0` opens a frame that holds no data bytes (R140). -/
theorem sysexStart_holds (s : State) : holdsSysex [] (sysexStart s) := by
  rw [sysexStart_spec]
  have hread := Memory.read_write_same s.dec.buf 0 0xF0#8
  exact ⟨(DecState.sxOpen_iff _).2 ⟨Nat.le_refl 1, hread⟩, rfl, rfl, congrArg (· :: []) hread⟩

/-- A data byte joins the frame while the buffer has room for it and an `F7` (R141). -/
theorem dataByte_joins_sysex {s : State} {data : List Byte} (b : Byte) (h : holdsSysex data s)
    (hroom : data.length + 2 < s.cfg.sysexCap) :
    dataByte b s = .next (appended b s) ∧ holdsSysex (data ++ [b]) (appended b s) := by
  obtain ⟨hopen, hrs, hpos, hframe⟩ := h
  obtain ⟨_, hhead⟩ := s.dec.sxOpen_iff.1 hopen
  refine ⟨?_, ?_, hrs, ?_, ?_⟩
  · rcases dataByte_cases b s with ⟨_, hclosed, _⟩ | ⟨_, _, e⟩ | ⟨_, hfull, _⟩ | ⟨hclosed, _⟩ |
      ⟨hclosed, _⟩ | ⟨hbeyond, _⟩
    · simp [hopen] at hclosed
    · exact e
    · omega
    · simp [hopen] at hclosed
    · simp [hopen] at hclosed
    · omega
  · exact (DecState.sxOpen_iff _).2 ⟨Nat.le_add_left 1 _,
      (Memory.read_write_ne _ _ (by omega)).trans hhead⟩
  · simp [appended, hpos]
  · show Memory.readFrame (Memory.write s.dec.buf s.dec.pos b) (s.dec.pos + 1) = _
    rw [Memory.readFrame_write_succ, hframe, List.cons_append]

/-- The body of a SysEx frame: its data bytes join the frame in order, its real-time bytes come out in
order, and nothing else is emitted. -/
theorem feed_sysex_body (body : List Byte) {s : State} {data : List Byte} (h : holdsSysex data s)
    (hbody : ∀ b ∈ body, isData b ∨ isRealTime b)
    (hroom : data.length + (body.filter fun b => decide (isData b)).length + 2 ≤ s.cfg.sysexCap) :
    ∃ t, feed body s = .next t ∧ t.cfg = s.cfg ∧ t.dec.inPort = s.dec.inPort
      ∧ holdsSysex (data ++ body.filter fun b => decide (isData b)) t
      ∧ t.events = s.events
          ++ (body.filter fun b => decide (isRealTime b)).map fun b => rtEvent b s.dec.inPort := by
  induction body generalizing s data with
  | nil => exact ⟨s, rfl, rfl, rfl, by simpa using h, by simp⟩
  | cons b rest ih =>
    have hrest : ∀ x ∈ rest, isData x ∨ isRealTime x := fun x hx => hbody x (List.mem_cons_of_mem b hx)
    rcases hbody b List.mem_cons_self with hdata | hrt
    · have hnot : ¬ isRealTime b := by omega
      simp only [List.filter_cons, hdata, hnot, decide_true, decide_false, if_true, if_false,
        List.length_cons, Bool.false_eq_true] at hroom ⊢
      obtain ⟨e, hnext⟩ := dataByte_joins_sysex b h (by omega)
      obtain ⟨t, hfeed, hcfg, hport, hholds, hevents⟩ := ih hnext hrest (by
        simp only [List.length_append, List.length_singleton]
        show _ ≤ s.cfg.sysexCap
        omega)
      refine ⟨t, (feed_cons ((exec_data hdata s).trans e)).trans hfeed, hcfg, hport, ?_, hevents⟩
      rwa [List.append_assoc] at hholds
    · have hnot : ¬ isData b := by omega
      simp only [List.filter_cons, hrt, hnot, decide_true, decide_false, if_true, if_false,
        List.map_cons, Bool.false_eq_true] at hroom ⊢
      obtain ⟨t, hfeed, hcfg, hport, hholds, hevents⟩ := ih (s := realTime b s) h hrest hroom
      refine ⟨t, (feed_cons (exec_realTime hrt s)).trans hfeed, hcfg, hport, hholds, ?_⟩
      rw [hevents, realTime_spec]
      simp

/-- Settles O57. `F0` opens the frame, the body fills it (`feed_sysex_body`), `F7` ends it with room to
spare. -/
theorem sysexFrameRoundTrips : Obligations.SysexFrameRoundTrips := by
  intro s body hbody hroom
  have hstart : exec (decodeWire 0xF0#8) s = .next (sysexStart s) := rfl
  have hkept : (sysexStart s).cfg = s.cfg ∧ (sysexStart s).dec.inPort = s.dec.inPort
      ∧ (sysexStart s).events = s.events := by rw [sysexStart_spec]; exact ⟨rfl, rfl, rfl⟩
  obtain ⟨hcfg0, hport0, hevents0⟩ := hkept
  obtain ⟨t, hfeed, hcfg, hport, ⟨hopen, _, hpos, hframe⟩, hevents⟩ :=
    feed_sysex_body body (sysexStart_holds s) hbody (by simpa [hcfg0] using hroom)
  have hend : exec (decodeWire 0xF7#8) t = eox t := rfl
  rw [eox_open hopen (by rw [hcfg, hcfg0, hpos, List.nil_append]; omega)] at hend
  have hall : feed ([0xF0#8] ++ body ++ [0xF7#8]) s = feed [0xF7#8] t := by
    rw [List.append_assoc, List.singleton_append, feed_cons hstart, feed_append body _ hfeed]
  refine ⟨_, hall.trans (feed_singleton hend), rfl, rfl, hport.trans hport0, ?_⟩
  show t.events ++ _ = _
  rw [hevents, hevents0, hframe, hport, hport0, List.nil_append]
  rfl

end Sys2Proof.Machine
end

section
/-! PROOFS. The encoder against the decoder (spec/42_encoder.md section 8): the bytes of an accepted command,
fed to a decoder that agrees on running status, bring channel-voice commands back (R190) and keep the
agreement (R191). -/

namespace Sys2Proof.Machine

/-! ### Feeding a decoder -/

/-- Feeding keeps the configuration and the invariant. -/
theorem feed_keeps_inv {bytes : List Byte} {d u : State} (h : d.Inv) (hf : feed bytes d = .next u) :
    u.cfg = d.cfg ∧ u.Inv := by
  induction bytes generalizing d with
  | nil => cases hf; exact ⟨rfl, h⟩
  | cons b rest ih =>
    obtain ⟨t, ht⟩ := exec_completes_of_inv (decodeWire b) h.1
    rw [feed_cons ht] at hf
    obtain ⟨hcfg, hinv⟩ := ih (exec_keeps_inv h ht) hf
    obtain ⟨hcfg', _⟩ := configurationAndInputsAreKept _ _ _ ht
    exact ⟨hcfg.trans hcfg', hinv⟩

/-- Any bytes can be fed to a decoder that meets the invariant. -/
theorem feed_completes_of_inv (bytes : List Byte) {d : State} (h : d.Inv) :
    ∃ u, feed bytes d = .next u := by
  induction bytes generalizing d with
  | nil => exact ⟨d, rfl⟩
  | cons b rest ih =>
    obtain ⟨t, ht⟩ := exec_completes_of_inv (decodeWire b) h.1
    rw [feed_cons ht]
    exact ih (exec_keeps_inv h ht)

/-! ### The port announcement -/

/-- The decoder's running status is `rs`, at a frame boundary, if there is one: `runningStatusAgrees` for
the running status an encoder has in the middle of a command. -/
def agreesOn (rs : Byte) (d : DecState) : Prop := rs ≠ 0x00#8 → d.rs = rs ∧ d.pos = 1

theorem agreesOn_zero (d : DecState) : agreesOn 0x00#8 d := fun h => absurd rfl h

/-- A port in range is the port its own byte selects (R202). -/
theorem resolvePort_port {cfg : Config} {port : Nat} (hlo : 1 ≤ port) (hhi : port ≤ cfg.nPorts) :
    isData (BitVec.ofNat 8 port) ∧ resolvePort cfg (BitVec.ofNat 8 port) = some port := by
  have hle := Config.nPorts_le cfg
  have hnat : (BitVec.ofNat 8 port).toNat = port := by
    rw [BitVec.toNat_ofNat]; omega
  have hne : ∀ b : Byte, b.toNat = 0 ∨ 16 < b.toNat → BitVec.ofNat 8 port ≠ b := fun b hb h => by
    rw [← h, hnat] at hb; omega
  refine ⟨by rw [isData, hnat]; omega, ?_⟩
  rw [resolvePort, if_neg (not_or.2 ⟨hne _ (.inl rfl), hne _ (.inr (by decide))⟩), hnat,
    if_pos ⟨hlo, hhi⟩]

/-- A port-select frame in any state selects its port with a record and leaves no frame open. -/
theorem feed_portSelect {d : State} {port : Nat} (hlo : 1 ≤ port) (hhi : port ≤ d.cfg.nPorts) :
    ∃ u, feed [0xF5#8, BitVec.ofNat 8 port] d = .next u
      ∧ u.events = d.events ++ [psEvent (BitVec.ofNat 8 port) port] := by
  obtain ⟨hdata, hport⟩ := resolvePort_port hlo hhi
  have hopen : exec (decodeWire 0xF5#8) d = .next (scStatus 0xF5#8 d) := rfl
  rw [scStatus_spec (by decide)] at hopen
  refine ⟨_, (feed_cons hopen).trans (feed_singleton ((exec_data hdata _).trans
    (dataByte_portSelect _ rfl (Memory.read_write_same d.dec.buf 0 0xF5#8) rfl rfl))), ?_⟩
  rw [hport]
  rfl

/-- What the port announcement of a command does to an agreeing decoder: a record exactly if it is sent,
and agreement on what the command's own bytes find in `rs_out` (R206, R208). -/
theorem feed_routeBytes {s d : State} {port : Nat}
    (hport : s.cfg.nPorts = 1 ∨ (1 ≤ port ∧ port ≤ s.cfg.nPorts)) (hcfg : d.cfg = s.cfg)
    (hagree : agreesOn s.enc.rsOut d.dec) :
    ∃ u, feed (routeBytes s port) d = .next u ∧ agreesOn (routeRs s port) u.dec
      ∧ u.events = d.events
          ++ (if announces s port then [psEvent (BitVec.ofNat 8 port) port] else []) := by
  unfold routeBytes routeRs
  by_cases hann : announces s port = true
  · have hmany := ((announces_iff s port).1 hann).1
    obtain ⟨hlo, hhi⟩ := hport.resolve_left hmany
    obtain ⟨u, hfeed, hevents⟩ := feed_portSelect (d := d) hlo (hcfg ▸ hhi)
    simp only [if_pos hann]
    exact ⟨u, hfeed, agreesOn_zero _, hevents⟩
  · simp only [if_neg hann]
    exact ⟨d, rfl, hagree, by rw [List.append_nil]⟩

/-! ### Channel-voice frames -/

/-- A decoder that meets the invariant stands after the channel-voice status byte `status`: the byte is its
running status and the data bytes come next. -/
def awaitsData (status : Byte) (d : State) : Prop :=
  d.Inv ∧ isChannelVoice status ∧ d.dec.rs = status ∧ d.dec.pos = 1

/-- The open frame is that of the running status. -/
theorem awaitsData.frame {status : Byte} {d : State} (h : awaitsData status d) :
    Memory.read d.dec.buf 0 = status ∧ d.dec.exp = cvLength (highNibble status) := by
  obtain ⟨hinv, hcv, hrs, hpos⟩ := h
  have hne : d.dec.rs ≠ 0x00#8 := hrs ▸ ne_zero_of_isChannelVoice hcv
  obtain ⟨hone, hhead⟩ := hinv.1.running hne
  have hexp := hinv.1.exp_eq hone
  rw [hhead, hrs, frameLength_channelVoice _ hcv] at hexp
  exact ⟨hhead.trans hrs, (Option.some.inj hexp).symm⟩

/-- A channel-voice status byte, in any state, is followed by its data bytes (R102). -/
theorem feed_status {status : Byte} {d : State} (hcv : isChannelVoice status) (h : d.Inv) :
    ∃ u, feed [status] d = .next u ∧ awaitsData status u ∧ u.dec.inPort = d.dec.inPort
      ∧ u.events = d.events := by
  rcases exec_wire_by_frame status with ⟨hrt, _⟩ | ⟨_, e⟩ | ⟨h6, _⟩ | ⟨h7, _⟩ | ⟨hdata, _⟩
  · omega
  · obtain ⟨_, _, e⟩ := e d
    have hrs : (if status.toNat < 0xF0 then status else 0x00#8) = status := if_pos (by omega)
    rw [hrs] at e
    exact ⟨_, feed_singleton e, ⟨exec_keeps_inv h e, hcv, rfl, rfl⟩, rfl, rfl⟩
  · rw [h6] at hcv; exact absurd hcv (by decide)
  · rw [h7] at hcv; exact absurd hcv (by decide)
  · omega

/-- The status byte of a command, sent or left out, brings an agreeing decoder to its data bytes (R162). -/
theorem feed_status_of_agreesOn {status rs : Byte} {d : State} (hcv : isChannelVoice status)
    (h : d.Inv) (hagree : agreesOn rs d.dec) :
    ∃ u, feed (if status = rs then [] else [status]) d = .next u ∧ awaitsData status u
      ∧ u.dec.inPort = d.dec.inPort ∧ u.events = d.events := by
  by_cases heq : status = rs
  · obtain ⟨hrs, hpos⟩ := hagree (heq ▸ ne_zero_of_isChannelVoice hcv)
    rw [if_pos heq]
    exact ⟨d, rfl, ⟨h, hcv, hrs.trans heq.symm, hpos⟩, rfl, rfl⟩
  · rw [if_neg heq]
    exact feed_status hcv h

/-- The one data byte of a frame of two bytes completes it (R127, R128). -/
theorem feed_one_data {status x : Byte} {d : State} (h : awaitsData status d) (hx : isData x)
    (hlen : cvLength (highNibble status) = 2) :
    feed [x] d = .next (frameCompleted x 1 (cvEvent [status, x] d.dec.inPort) d) := by
  obtain ⟨hhead, hexp⟩ := h.frame
  obtain ⟨_, hcv, hrs, hpos⟩ := h
  have hrun : d.dec.rs ≠ 0x00#8 := hrs ▸ ne_zero_of_isChannelVoice hcv
  have e := dataByte_completes_channelVoice x (s := d) (by rw [hhead]; omega) (by omega) (by omega)
    (by omega)
  rw [if_pos hrun, hpos, Memory.readFrame_one, hhead] at e
  exact feed_singleton ((exec_data hx d).trans e)

/-- The two data bytes of a frame of three bytes complete it (R126 to R128). -/
theorem feed_two_data {status x y : Byte} {d : State} (h : awaitsData status d) (hx : isData x)
    (hy : isData y) (hlen : cvLength (highNibble status) = 3) :
    feed [x, y] d = .next
      (frameCompleted y 1 (cvEvent [status, x, y] d.dec.inPort) (appended x d)) := by
  obtain ⟨hhead, hexp⟩ := h.frame
  obtain ⟨hinv, hcv, hrs, hpos⟩ := h
  have hrun : (appended x d).dec.rs ≠ 0x00#8 := hrs ▸ ne_zero_of_isChannelVoice hcv
  have hfirst : dataByte x d = .next (appended x d) := by
    rcases dataByte_cases_of_inv x hinv.1 with ⟨_, hzero, _⟩ | ⟨_, _, e⟩ | ⟨_, hlast, _⟩ |
      ⟨_, hlast, _⟩ | ⟨_, hlast, _⟩ | ⟨_, _, htwo, _⟩
    · omega
    · exact e
    all_goals omega
  have hhead' : Memory.read (appended x d).dec.buf 0 = status :=
    (Memory.read_write_ne _ _ (by omega)).trans hhead
  have hpos' : (appended x d).dec.pos = d.dec.pos + 1 := rfl
  have hexp' : (appended x d).dec.exp = d.dec.exp := rfl
  have hframe : Memory.readFrame (appended x d).dec.buf (d.dec.pos + 1) = [status, x] := by
    show Memory.readFrame (Memory.write d.dec.buf d.dec.pos x) (d.dec.pos + 1) = _
    rw [Memory.readFrame_write_succ, hpos, Memory.readFrame_one, hhead]
    rfl
  have e := dataByte_completes_channelVoice y (s := appended x d) (by rw [hhead']; omega) (by omega)
    (by omega) (by omega)
  rw [if_pos hrun, hpos', hframe] at e
  exact (feed_cons ((exec_data hx d).trans hfirst)).trans (feed_singleton ((exec_data hy _).trans e))

/-- The data bytes of a whole frame give its record, and the decoder is again after the status byte. -/
theorem feed_data {status : Byte} {data : List Byte} {d : State} (h : awaitsData status d)
    (hdata : ∀ b ∈ data, isData b) (hlen : data.length + 1 = cvLength (highNibble status)) :
    ∃ u, feed data d = .next u ∧ awaitsData status u ∧ u.dec.inPort = d.dec.inPort
      ∧ u.events = d.events ++ [cvEvent (status :: data) d.dec.inPort] := by
  have ⟨hinv, hcv, hrs, _⟩ := h
  have hrange : cvLength (highNibble status) = 2 ∨ cvLength (highNibble status) = 3 := by
    unfold cvLength; split_ifs <;> simp
  match data, hlen with
  | [], hlen => rw [List.length_nil] at hlen; omega
  | [x], hlen =>
    have e := feed_one_data h (hdata x (by simp)) hlen.symm
    exact ⟨_, e, ⟨(feed_keeps_inv hinv e).2, hcv, hrs, rfl⟩, rfl, rfl⟩
  | [x, y], hlen =>
    have e := feed_two_data h (hdata x (by simp)) (hdata y (by simp)) hlen.symm
    exact ⟨_, e, ⟨(feed_keeps_inv hinv e).2, hcv, hrs, rfl⟩, rfl, rfl⟩
  | _ :: _ :: _ :: rest, hlen => simp only [List.length_cons] at hlen; omega

end Sys2Proof.Machine
end

section
/-! PROOFS. The round trip of channel-voice commands (spec/42_encoder.md R190): the encoder's bytes are data
bytes in plain arithmetic, and the record of the frame they complete has the command's operands. -/

namespace Sys2Proof.Machine

/-! ### The data bytes -/

theorem setWidth_isData (v : Data7) : isData (v.setWidth 8) := by
  revert v; decide

/-- A 7-bit value is sent as it is (R188). -/
theorem setWidth_and_mask (v : Data7) : v.setWidth 8 &&& 0x7F#8 = v.setWidth 8 := by
  revert v; decide

/-- The two 7-bit halves of a 14-bit value, least significant first (R53). -/
def low7 (w : Int) : Data7 := BitVec.ofNat 7 (w % 16384 % 128).toNat

def high7 (w : Int) : Data7 := BitVec.ofNat 7 (w % 16384 / 128).toNat

/-- The halves as wire bytes. -/
theorem ofInt_low7 (w : Int) : BitVec.ofInt 8 (w % 16384 % 128) = (low7 w).setWidth 8 := by
  have hnat : w % 16384 % 128 = (((w % 16384 % 128).toNat : Nat) : Int) := by omega
  have hlt : (w % 16384 % 128).toNat < 128 := by omega
  apply BitVec.eq_of_toNat_eq
  rw [hnat, BitVec.ofInt_natCast, low7, BitVec.toNat_ofNat, BitVec.toNat_setWidth, BitVec.toNat_ofNat]
  omega

theorem ofInt_high7 (w : Int) : BitVec.ofInt 8 (w % 16384 / 128) = (high7 w).setWidth 8 := by
  have hnat : w % 16384 / 128 = (((w % 16384 / 128).toNat : Nat) : Int) := by omega
  have hlt : (w % 16384 / 128).toNat < 128 := by omega
  apply BitVec.eq_of_toNat_eq
  rw [hnat, BitVec.ofInt_natCast, high7, BitVec.toNat_ofNat, BitVec.toNat_setWidth, BitVec.toNat_ofNat]
  omega

/-- Sending the biased value and reading it back gives the value (R74, R169). -/
theorem unbias14_halves {val : Int} (hlo : -8192 ≤ val) (hhi : val ≤ 8191) :
    unbias14 (low7 (val + 8192)) (high7 (val + 8192)) = val := by
  rw [unbias14_eq, low7, high7, BitVec.toNat_ofNat, BitVec.toNat_ofNat]
  omega

/-! ### The commands -/

/-- A command that puts out the frame of `status` and the data bytes `values`, its status byte left out
under running status, is brought back as the record of that frame. -/
theorem bringsBack_of_sent {s d : State} {i : Instr} {port : Nat} {P : Event → Prop} {status : Byte}
    {values : List Data7} (hport : s.cfg.nPorts = 1 ∨ (1 ≤ port ∧ port ≤ s.cfg.nPorts))
    (hcfg : d.cfg = s.cfg) (hinv : d.Inv) (hagree : agreesOn s.enc.rsOut d.dec)
    (hexec : exec i s = .next (sent s port
      ((if status = routeRs s port then [] else [status]) ++ values.map fun v => v.setWidth 8)
      status))
    (hcv : isChannelVoice status)
    (hlen : values.length + 1 = cvLength (highNibble status))
    (hP : ∀ p, P (cvEvent (status :: values.map fun v => v.setWidth 8) p)) : bringsBack s d i port P := by
  obtain ⟨u, hroute, hagree', hannounced⟩ := feed_routeBytes hport hcfg hagree
  obtain ⟨_, hinv'⟩ := feed_keeps_inv hinv hroute
  obtain ⟨v, hstatus, hawaits, hport', hsilent⟩ := feed_status_of_agreesOn hcv hinv' hagree'
  obtain ⟨w, hframe, _, hport'', hevents⟩ :=
    feed_data hawaits (data := values.map fun v => v.setWidth 8) (fun b hb => by
      obtain ⟨v, _, rfl⟩ := List.mem_map.1 hb
      exact setWidth_isData v) (by rwa [List.length_map])
  refine ⟨_, _, w, _, hexec, List.append_assoc .., ?_, ?_, rfl, hport''.symm, hP _⟩
  · rw [feed_append _ _ hroute, feed_append _ _ hstatus, hframe]
  · rw [hevents, hsilent, hannounced]

/-- At a frame boundary the decoder that has the encoder's running status agrees with it. -/
theorem agreesOn_of_boundary {d : DecState} {rs : Byte} (h : d.rs = rs) {cfg : Config} (hinv : d.Inv cfg)
    (hboundary : d.pos = 0 ∨ (d.pos = 1 ∧ d.rs ≠ 0x00#8)) : agreesOn rs d := by
  intro hne
  obtain ⟨hpos, _⟩ := hinv.running (h.trans_ne hne)
  exact ⟨h, by omega⟩

/-- Settles O58. Each command is `CvOut` with its own kind and data bytes
(`twoDataChannelVoiceCommandOutput` and its like), so `bringsBack_of_sent` brings it back; what is left is
that the record of its frame has its operands. -/
theorem channelVoiceCommandRoundTrips : Obligations.ChannelVoiceCommandRoundTrips := by
  intro s d chan d1 d2 val port hport hcfg hinv hrs hboundary hlo hhi
  have hagree := agreesOn_of_boundary hrs hinv.1 hboundary
  refine ⟨fun p hp => ?_, fun p hp => ?_, ?_⟩
  · have hkind : 8 ≤ p.1.toNat ∧ p.1.toNat ≤ 0xE ∧ cvLength p.1 = 3 := by
      simp only [List.mem_cons, List.not_mem_nil, or_false] at hp
      rcases hp with rfl | rfl | rfl | rfl <;> exact ⟨by decide, by decide, rfl⟩
    obtain ⟨hk8, hkE, hlen⟩ := hkind
    have hexec := twoDataChannelVoiceCommandOutput s chan (d1.setWidth 8) (d2.setWidth 8) port hport p hp
    rw [setWidth_and_mask, setWidth_and_mask] at hexec
    refine bringsBack_of_sent (values := [d1, d2]) hport hcfg hinv hagree hexec
      (isChannelVoice_append hk8 hkE chan)
      (by rw [highNibble_append, hlen]; rfl) fun port' => ?_
    rw [List.map_cons, List.map_cons, List.map_nil, cvEvent_two]
    exact ⟨rfl, rfl, rfl, rfl, rfl⟩
  · have hkind : 8 ≤ p.1.toNat ∧ p.1.toNat ≤ 0xE ∧ cvLength p.1 = 2 := by
      simp only [List.mem_cons, List.not_mem_nil, or_false] at hp
      rcases hp with rfl | rfl <;> exact ⟨by decide, by decide, rfl⟩
    obtain ⟨hk8, hkE, hlen⟩ := hkind
    have hexec := oneDataChannelVoiceCommandOutput s chan (d1.setWidth 8) port hport p hp
    rw [setWidth_and_mask] at hexec
    refine bringsBack_of_sent (values := [d1]) hport hcfg hinv hagree hexec
      (isChannelVoice_append hk8 hkE chan)
      (by rw [highNibble_append, hlen]; rfl) fun port' => ?_
    rw [List.map_cons, List.map_nil, cvEvent_one]
    exact ⟨rfl, rfl, rfl, rfl⟩
  · have hexec := pitchBendCommandOutput s chan val port hport
    rw [ofInt_low7, ofInt_high7] at hexec
    refine bringsBack_of_sent (values := [low7 (val + 8192), high7 (val + 8192)]) hport hcfg hinv
      hagree hexec (isChannelVoice_append (by decide) (by decide) chan) (by rw [highNibble_append]; rfl)
      fun port' => ?_
    rw [List.map_cons, List.map_cons, List.map_nil, cvEvent_two]
    exact ⟨rfl, rfl, rfl, unbias14_halves hlo hhi⟩

end Sys2Proof.Machine
end

section
/-! PROOFS. The agreement on running status is kept (spec/42_encoder.md R191): what the bytes of every
command class do to a decoder, and the port announcement before them. -/

namespace Sys2Proof.Machine

/-! ### The bytes of a command by class -/

/-- The data bytes of a 14-bit value. -/
theorem ofInt_isData (w : Int) :
    isData (BitVec.ofInt 8 (w % 16384 % 128)) ∧ isData (BitVec.ofInt 8 (w % 16384 / 128)) := by
  rw [ofInt_low7, ofInt_high7]
  exact ⟨setWidth_isData _, setWidth_isData _⟩

/-- The controllers of the 14-bit controller command: the number and its partner 32 higher (R185). -/
theorem controller_isData {param : BitVec 16} (h : param.toNat ≤ 31) :
    isData (param.setWidth 8) ∧ isData (param.setWidth 8 + 0x20#8) := by
  have hnat : (param.setWidth 8).toNat = param.toNat := by
    rw [BitVec.toNat_setWidth]; omega
  refine ⟨by rw [isData, hnat]; omega, ?_⟩
  rw [isData, BitVec.toNat_add, hnat]
  show (param.toNat + 32) % 256 < 128
  omega

/-- The kinds of a listed command, by its class (R83). -/
theorem kind_of_listed {cls : BitVec 3} {kind : Nibble} (h : acceptedSelectors.contains (cls ++ kind) = true) :
    (cls = 0#3 → 8 ≤ kind.toNat ∧ kind.toNat ≤ 0xE)
    ∧ (cls = 2#3 → ∀ b : Byte, b = 0xF#4 ++ kind → isRealTime b)
    ∧ (cls ≠ 0#3 → cls ≠ 1#3 → cls ≠ 2#3 → cls ≠ 3#3 → cls = 4#3) := by
  revert cls kind; decide

/-- The data bytes of a channel-voice command record (R163 to R169). -/
def channelVoiceData (c : Command) : List Byte :=
  if c.kind = 0xE#4 then lsbFirst (c.val.toInt + 8192)
  else if c.kind = 0xC#4 ∨ c.kind = 0xD#4 then [c.d1 &&& 0x7F#8]
  else [c.d1 &&& 0x7F#8, c.d2 &&& 0x7F#8]

/-- The controller changes of an extended command record, each a controller and its value (R185 to
R187). -/
def controllerPairs (c : Command) : List (Byte × Byte) :=
  if c.kind = 0#4 then
    [(c.param.setWidth 8, BitVec.ofInt 8 (c.val.toInt % 16384 / 128)),
     (c.param.setWidth 8 + 0x20#8, BitVec.ofInt 8 (c.val.toInt % 16384 % 128))]
  else
    [(if c.kind = 1#4 then 0x63#8 else 0x65#8, BitVec.ofInt 8 ((c.param.toNat : Int) % 16384 / 128)),
     (if c.kind = 1#4 then 0x62#8 else 0x64#8, BitVec.ofInt 8 ((c.param.toNat : Int) % 16384 % 128)),
     (0x06#8, BitVec.ofInt 8 (c.val.toInt % 16384 / 128)),
     (0x26#8, BitVec.ofInt 8 (c.val.toInt % 16384 % 128))]

theorem ownBytes_channelVoice {c : Command} (h : c.cls = 0#3) (rs : Byte) :
    ownBytes c rs = (if c.kind ++ c.chan = rs then [] else [c.kind ++ c.chan]) ++ channelVoiceData c
    ∧ ownRs c rs = c.kind ++ c.chan := by
  simp only [ownBytes, ownRs, channelVoiceData, if_pos h, and_self]

theorem ownBytes_realTime {c : Command} (h : c.cls = 2#3) (rs : Byte) :
    ownBytes c rs = [0xF#4 ++ c.kind] ∧ ownRs c rs = rs := by
  simp [ownBytes, ownRs, h]

theorem ownBytes_extended {c : Command} (h : c.cls = 4#3) (rs : Byte) :
    ownBytes c rs = (0xB#4 ++ c.chan) :: (controllerPairs c).flatMap (fun p => [p.1, p.2])
    ∧ ownRs c rs = 0xB#4 ++ c.chan := by
  by_cases hkind : c.kind = 0#4 <;> simp [ownBytes, ownRs, controllerPairs, h, hkind]

/-- A system-common or SysEx command leaves no running status (R170, R183). -/
theorem ownRs_system {c : Command} (h : c.cls = 1#3 ∨ c.cls = 3#3) (rs : Byte) :
    ownRs c rs = 0x00#8 := by
  rcases h with h | h <;> simp [ownRs, h]

/-- The data bytes of a channel-voice command complete its frame. -/
theorem channelVoiceData_frame (c : Command) :
    (∀ b ∈ channelVoiceData c, isData b) ∧ (channelVoiceData c).length + 1 = cvLength c.kind := by
  obtain ⟨hlsb, hmsb⟩ := ofInt_isData (c.val.toInt + 8192)
  have hmask : ∀ d : Byte, isData (d &&& 0x7F#8) := mask7_isData
  unfold channelVoiceData cvLength
  by_cases hE : c.kind = 0xE#4
  · rw [if_pos hE, if_neg (by rw [hE]; decide)]
    exact ⟨List.forall_mem_cons.2 ⟨hlsb, List.forall_mem_singleton.2 hmsb⟩, rfl⟩
  · rw [if_neg hE]
    split_ifs
    · exact ⟨List.forall_mem_singleton.2 (hmask _), rfl⟩
    · exact ⟨List.forall_mem_cons.2 ⟨hmask _, List.forall_mem_singleton.2 (hmask _)⟩, rfl⟩

/-- The controllers and values of an accepted extended command are data bytes: check 4 of `Accept` bounds
the one controller number that comes from the record. -/
theorem controllerPairs_isData {cfg : Config} {c : Command} (h : c.cls = 4#3)
    (hextra : extraChecks cfg c = true) : ∀ p ∈ controllerPairs c, isData p.1 ∧ isData p.2 := by
  obtain ⟨hlsb, hmsb⟩ := ofInt_isData c.val.toInt
  obtain ⟨hparamLsb, hparamMsb⟩ := ofInt_isData c.param.toNat
  unfold controllerPairs
  by_cases hkind : c.kind = 0#4
  · have hsel : c.sel = 0x40#7 := by rw [Command.sel, h, hkind]; rfl
    have hparam : c.param.toNat ≤ 31 := by
      simp only [extraChecks, hsel, Bool.and_eq_true, Bool.or_eq_true, decide_eq_true_eq] at hextra
      obtain ⟨_, hparam⟩ := hextra
      exact hparam.resolve_left fun hne => hne rfl
    obtain ⟨hlow, hhigh⟩ := controller_isData hparam
    rw [if_pos hkind]
    exact List.forall_mem_cons.2 ⟨⟨hlow, hmsb⟩, List.forall_mem_singleton.2 ⟨hhigh, hlsb⟩⟩
  · rw [if_neg hkind]
    simp only [List.forall_mem_cons]
    refine ⟨⟨?_, hparamMsb⟩, ⟨?_, hparamLsb⟩, ⟨by decide, hmsb⟩, ⟨by decide, hlsb⟩,
      fun _ hmem => absurd hmem List.not_mem_nil⟩ <;> split_ifs <;> decide

/-! ### What they do to an agreeing decoder -/

/-- Whole pairs of data bytes after a status byte of a three-byte frame are whole frames. -/
theorem feed_pairs {status : Byte} (pairs : List (Byte × Byte))
    (hdata : ∀ p ∈ pairs, isData p.1 ∧ isData p.2) (hlen : cvLength (highNibble status) = 3) {d : State}
    (h : awaitsData status d) :
    ∃ u, feed (pairs.flatMap fun p => [p.1, p.2]) d = .next u ∧ awaitsData status u := by
  induction pairs generalizing d with
  | nil => exact ⟨d, rfl, h⟩
  | cons p rest ih =>
    obtain ⟨hp, hrest⟩ := List.forall_mem_cons.1 hdata
    obtain ⟨u, hfeed, hawaits, _⟩ := feed_data h (data := [p.1, p.2])
      (by simpa using hp) hlen.symm
    obtain ⟨v, hfeed', hawaits'⟩ := ih hrest hawaits
    exact ⟨v, by rw [List.flatMap_cons, feed_append _ _ hfeed, hfeed'], hawaits'⟩

theorem awaitsData.agreesOn {status : Byte} {d : State} (h : awaitsData status d) :
    agreesOn status d.dec := by
  obtain ⟨_, _, hrs, hpos⟩ := h
  exact fun _ => ⟨hrs, hpos⟩

/-- The own bytes of an accepted command keep the agreement, class by class: a channel-voice frame, a
real-time byte, controller changes under a new status byte, or bytes that leave no running status. -/
theorem feed_ownBytes {cfg : Config} {c : Command} (hacc : c.accept cfg = true) {rs : Byte} {d : State}
    (h : d.Inv) (hagree : agreesOn rs d.dec) :
    ∃ u, feed (ownBytes c rs) d = .next u ∧ agreesOn (ownRs c rs) u.dec := by
  obtain ⟨hlisted, hextra, _⟩ := checks_of_accept hacc
  obtain ⟨hcv, hrt, hclass⟩ := kind_of_listed hlisted
  by_cases h0 : c.cls = 0#3
  · obtain ⟨hbytes, hrs⟩ := ownBytes_channelVoice h0 rs
    obtain ⟨hdata, hlen⟩ := channelVoiceData_frame c
    obtain ⟨hlo, hhi⟩ := hcv h0
    obtain ⟨u, hstatus, hawaits, _⟩ :=
      feed_status_of_agreesOn (isChannelVoice_append hlo hhi c.chan) h hagree
    obtain ⟨v, hframe, hawaits', _⟩ := feed_data hawaits hdata (by rwa [highNibble_append])
    exact ⟨v, by rw [hbytes, feed_append _ _ hstatus, hframe], hrs ▸ hawaits'.agreesOn⟩
  by_cases h2 : c.cls = 2#3
  · obtain ⟨hbytes, hrs⟩ := ownBytes_realTime h2 rs
    exact ⟨realTime _ d, by rw [hbytes]; exact feed_singleton (exec_realTime (hrt h2 _ rfl) d),
      hrs ▸ hagree⟩
  by_cases h13 : c.cls = 1#3 ∨ c.cls = 3#3
  · obtain ⟨u, hfeed⟩ := feed_completes_of_inv (ownBytes c rs) h
    exact ⟨u, hfeed, ownRs_system h13 rs ▸ agreesOn_zero _⟩
  obtain ⟨h1, h3⟩ := not_or.1 h13
  have h4 := hclass h0 h1 h2 h3
  obtain ⟨hbytes, hrs⟩ := ownBytes_extended h4 rs
  obtain ⟨u, hstatus, hawaits, _⟩ :=
    feed_status (isChannelVoice_append (kind := 0xB#4) (by decide) (by decide) c.chan) h
  obtain ⟨v, hpairs, hawaits'⟩ := feed_pairs _ (controllerPairs_isData h4 hextra)
    (by rw [highNibble_append]; rfl) hawaits
  refine ⟨v, ?_, hrs ▸ hawaits'.agreesOn⟩
  rw [hbytes, ← List.singleton_append, feed_append _ _ hstatus, hpairs]

/-- Settles O59. The decoder takes the port announcement, then the command's own bytes. -/
theorem runningStatusAgreementIsKept : Obligations.RunningStatusAgreementIsKept := by
  intro s d t c rest hcfg hinv hagree hin hacc ht
  obtain ⟨_, _, hport⟩ := checks_of_accept hacc
  rw [step_of_accept hin hacc] at ht
  cases ht
  obtain ⟨u, hroute, hagree', _⟩ := feed_routeBytes ((portAccepted_iff _ _).1 hport) hcfg hagree
  obtain ⟨hcfg', hinv'⟩ := feed_keeps_inv hinv hroute
  obtain ⟨v, hown, hkept⟩ := feed_ownBytes hacc hinv' hagree'
  obtain ⟨hcfg'', hinv''⟩ := feed_keeps_inv hinv' hown
  exact ⟨_, v, List.append_assoc .., (feed_append _ _ hroute).trans hown, hcfg''.trans hcfg', hinv'',
    hkept⟩

end Sys2Proof.Machine
end

section
/-! PROOFS. What no rule reads cannot be observed (spec/10_state.md R23 and R25): two states that differ only
in buffer elements at `pos` and above, and in `exp` with no frame open, stay so under every instruction. -/

namespace Sys2Proof.Machine

/-- `t` is `s` but for what DEC does not read. -/
def unreadApart (s t : State) : Prop := t = { s with dec := t.dec } ∧ s.dec.alike t.dec

/-! ### What two such states share -/

section Shared

variable {s t : State} (h : unreadApart s t)
include h

theorem unreadApart.cfg_eq : t.cfg = s.cfg := by
  obtain ⟨ht, _⟩ := h; rw [ht]

theorem unreadApart.encView_eq : t.encView = s.encView := by
  obtain ⟨ht, _⟩ := h; rw [ht]; rfl

theorem unreadApart.rs_eq : t.dec.rs = s.dec.rs := by
  obtain ⟨_, hrs, _⟩ := h; exact hrs.symm

theorem unreadApart.pos_eq : t.dec.pos = s.dec.pos := by
  obtain ⟨_, _, hpos, _⟩ := h; exact hpos.symm

theorem unreadApart.inPort_eq : t.dec.inPort = s.dec.inPort := by
  obtain ⟨_, _, _, hport, _⟩ := h; exact hport.symm

theorem unreadApart.dstat_eq : t.dec.dstat = s.dec.dstat := by
  obtain ⟨_, _, _, _, hdstat, _⟩ := h; exact hdstat.symm

theorem unreadApart.exp_eq (hpos : 1 ≤ s.dec.pos) : t.dec.exp = s.dec.exp := by
  obtain ⟨_, _, _, _, _, hexp, _⟩ := h; exact (hexp hpos).symm

theorem unreadApart.read_eq : ∀ a < s.dec.pos, Memory.read t.dec.buf a = Memory.read s.dec.buf a := by
  obtain ⟨_, _, _, _, _, _, hread⟩ := h; exact fun a ha => (hread a ha).symm

theorem unreadApart.readFrame_eq :
    Memory.readFrame t.dec.buf s.dec.pos = Memory.readFrame s.dec.buf s.dec.pos :=
  Memory.readFrame_congr h.read_eq

theorem unreadApart.sxOpen_eq : t.dec.sxOpen = s.dec.sxOpen := by
  rw [Bool.eq_iff_iff, DecState.sxOpen_iff, DecState.sxOpen_iff, h.pos_eq]
  exact and_congr_right fun hpos => by rw [h.read_eq 0 hpos]

end Shared

/-! ### Updates that keep two states so -/

theorem unreadApart.emit {s t : State} (h : unreadApart s t) (e : Event) :
    unreadApart (s.emit e) (t.emit e) := by
  obtain ⟨ht, halike⟩ := h
  exact ⟨by rw [ht]; rfl, halike⟩

theorem unreadApart.returnDec {s t : State} (h : unreadApart s t) (v : Byte) :
    unreadApart (s.returnDec v) (t.returnDec v) := by
  obtain ⟨ht, halike⟩ := h
  exact ⟨by rw [ht]; rfl, halike⟩

theorem unreadApart.setDec {s t : State} (h : unreadApart s t) {d d' : DecState} (hd : d.alike d') :
    unreadApart (s.setDec d) (t.setDec d') := by
  obtain ⟨ht, _⟩ := h
  exact ⟨by rw [ht]; rfl, hd⟩

theorem unreadApart.graftEnc {s t : State} (h : unreadApart s t) (u : State) :
    unreadApart (s.graftEnc u) (t.graftEnc u) := by
  obtain ⟨ht, halike⟩ := h
  exact ⟨by rw [ht]; rfl, halike⟩

/-- With no frame open nothing of the buffer is read. -/
theorem DecState.alike_of_pos_zero {d d' : DecState} (hrs : d.rs = d'.rs) (hpos : d.pos = 0)
    (hpos' : d'.pos = 0) (hport : d.inPort = d'.inPort) (hdstat : d.dstat = d'.dstat) :
    d.alike d' :=
  ⟨hrs, hpos.trans hpos'.symm, hport, hdstat, fun h => by omega, fun a h => by omega⟩

/-- Closing the frame leaves nothing to read. -/
theorem unreadApart.closeFrame {s t : State} (h : unreadApart s t) :
    s.dec.closeFrame.alike t.dec.closeFrame :=
  DecState.alike_of_pos_zero rfl rfl rfl h.inPort_eq.symm h.dstat_eq.symm

/-! ### DEC's operations -/

/-- A byte joins the open frame of both states. -/
theorem unreadApart.appended {s t : State} (h : unreadApart s t) (b : Byte) (hpos : 1 ≤ s.dec.pos) :
    unreadApart (appended b s) (appended b t) := by
  refine h.setDec ⟨h.rs_eq.symm, congrArg (· + 1) h.pos_eq.symm, h.inPort_eq.symm, h.dstat_eq.symm,
    fun _ => (h.exp_eq hpos).symm, fun a ha => ?_⟩
  have ha : a < s.dec.pos + 1 := ha
  show Memory.read (Memory.write s.dec.buf s.dec.pos b) a = Memory.read (Memory.write t.dec.buf t.dec.pos b) a
  rw [h.pos_eq]
  by_cases hlast : a = s.dec.pos
  · rw [hlast, Memory.read_write_same, Memory.read_write_same]
  · rw [Memory.read_write_ne _ _ hlast, Memory.read_write_ne _ _ hlast, h.read_eq a (by omega)]

theorem unreadApart.portSelect {s t : State} (h : unreadApart s t) (pp : Byte) :
    unreadApart (portSelect pp s) (portSelect pp t) := by
  have ⟨_, hrs, hpos, hport, hdstat, hexp, hread⟩ := h
  unfold Machine.portSelect
  rw [h.cfg_eq]
  cases resolvePort s.cfg pp with
  | none => exact h.setDec ⟨hrs, hpos, hport, congrArg (· ||| portRangeBit) hdstat, hexp, hread⟩
  | some p =>
    have hselected : DecState.alike { s.dec with inPort := p } { t.dec with inPort := p } :=
      ⟨hrs, hpos, rfl, hdstat, hexp, hread⟩
    exact (h.setDec hselected).emit _

/-- Fewer bytes of an open frame are read when `pos` goes down. -/
theorem DecState.alike.lower {d d' : DecState} (h : d.alike d') {n : Nat} (hpos : 1 ≤ d.pos)
    (hn : n ≤ d.pos) : DecState.alike { d with pos := n } { d' with pos := n } := by
  obtain ⟨hrs, _, hport, hdstat, hexp, hread⟩ := h
  exact ⟨hrs, rfl, hport, hdstat, fun _ => hexp hpos, fun a ha => hread a (Nat.lt_of_lt_of_le ha hn)⟩

/-- The output of a frame leaves `pos` to `Complete` (R127). -/
theorem emitFrame_pos (s : State) : (emitFrame s).dec.pos = s.dec.pos := by
  simp only [emitFrame]
  split_ifs
  · rfl
  · unfold portSelect
    split <;> rfl
  · rfl

/-- A complete frame is all below `pos`. -/
theorem unreadApart.complete {s t : State} (h : unreadApart s t) (hpos : 1 ≤ s.dec.pos)
    (hexp : s.dec.pos = s.dec.exp) : unreadApart (complete s) (complete t) := by
  have hframe : Memory.readFrame t.dec.buf t.dec.exp = Memory.readFrame s.dec.buf s.dec.exp := by
    rw [h.exp_eq hpos, ← hexp, h.readFrame_eq]
  have hemit : unreadApart (emitFrame s) (emitFrame t) := by
    unfold emitFrame
    simp only [hframe, h.read_eq 0 hpos, h.inPort_eq]
    split_ifs
    · exact h.emit _
    · exact h.portSelect _
    · exact h.emit _
  have hpos' : 1 ≤ (emitFrame s).dec.pos := emitFrame_pos s ▸ hpos
  have hnext : (if (emitFrame t).dec.rs ≠ 0x00#8 then 1 else 0) =
      if (emitFrame s).dec.rs ≠ 0x00#8 then 1 else 0 := by rw [hemit.rs_eq]
  unfold Machine.complete
  simp only [hnext]
  exact hemit.setDec (hemit.2.lower hpos' (by split_ifs <;> omega))

/-- A full buffer is all below `pos`. -/
theorem unreadApart.truncate {s t : State} (h : unreadApart s t)
    (hfull : s.dec.pos = s.cfg.sysexCap) : unreadApart (truncate s) (truncate t) := by
  have hdropped : DecState.alike { s.dec.flag sxTruncBit with pos := 0 }
      { t.dec.flag sxTruncBit with pos := 0 } :=
    DecState.alike_of_pos_zero h.rs_eq.symm rfl rfl h.inPort_eq.symm
      (congrArg (· ||| sxTruncBit) h.dstat_eq.symm)
  unfold Machine.truncate
  rw [h.cfg_eq, ← hfull, h.readFrame_eq, h.inPort_eq]
  exact (h.setDec hdropped).emit _

/-- A data byte with no frame open and no running status is discarded (R126). -/
theorem dataByte_discarded {s : State} (b : Byte) (hrs : s.dec.rs = 0x00#8) (hpos : s.dec.pos = 0) :
    dataByte b s = .next s :=
  if_pos ⟨hrs, DecState.sxOpen_of_pos_zero hpos, hpos⟩

/-- A data byte in an open SysEx frame (R141). -/
theorem dataByte_sysex {s : State} (b : Byte) (hopen : s.dec.sxOpen = true)
    (hroom : s.dec.pos < s.cfg.sysexCap) :
    dataByte b s = .next (if s.dec.pos + 1 = s.cfg.sysexCap then truncate (appended b s)
      else appended b s) := by
  unfold dataByte sysexData
  rw [if_neg (by simp [hopen]), if_pos hopen, DecState.append_eq_some.2 ⟨hroom, rfl⟩]
  rfl

/-- A data byte in an open frame other than SysEx (R126). -/
theorem dataByte_frame {s : State} (b : Byte) (hclosed : s.dec.sxOpen = false) (hpos : 1 ≤ s.dec.pos)
    (hroom : s.dec.pos < s.cfg.sysexCap) :
    dataByte b s = .next (if s.dec.pos + 1 = s.dec.exp then complete (appended b s)
      else appended b s) := by
  unfold dataByte
  rw [if_neg (by omega), if_neg (by simp [hclosed]), DecState.append_eq_some.2 ⟨hroom, rfl⟩]
  rfl

/-- A data byte does the same to both states. -/
theorem unreadApart.dataByte {s t : State} (h : unreadApart s t) (hinv : s.dec.Inv s.cfg) (b : Byte) :
    ∃ s' t', dataByte b s = .next s' ∧ dataByte b t = .next t' ∧ unreadApart s' t' := by
  have hroom := hinv.pos_lt_cap
  have hroom' : t.dec.pos < t.cfg.sysexCap := by rwa [h.pos_eq, h.cfg_eq]
  by_cases hpos : s.dec.pos = 0
  · have hrs : s.dec.rs = 0x00#8 := by
      by_contra hne
      obtain ⟨hone, _⟩ := hinv.running hne
      omega
    exact ⟨s, t, dataByte_discarded b hrs hpos,
      dataByte_discarded b (h.rs_eq.trans hrs) (h.pos_eq.trans hpos), h⟩
  · have hone : 1 ≤ s.dec.pos := Nat.one_le_iff_ne_zero.2 hpos
    have happ := h.appended b hone
    have hone' : 1 ≤ (Machine.appended b s).dec.pos := Nat.le_add_left 1 _
    cases hopen : s.dec.sxOpen with
    | true =>
      refine ⟨_, _, dataByte_sysex b hopen hroom,
        dataByte_sysex b (h.sxOpen_eq.trans hopen) hroom', ?_⟩
      rw [h.pos_eq, h.cfg_eq]
      split_ifs with hfull
      · exact happ.truncate hfull
      · exact happ
    | false =>
      refine ⟨_, _, dataByte_frame b hopen hone hroom,
        dataByte_frame b (h.sxOpen_eq.trans hopen) (h.pos_eq ▸ hone) hroom', ?_⟩
      rw [h.pos_eq, h.exp_eq hone]
      split_ifs with hlast
      · exact happ.complete hone' hlast
      · exact happ

/-- `F7` does the same to both states. -/
theorem unreadApart.eox {s t : State} (h : unreadApart s t) (hinv : s.dec.Inv s.cfg) :
    ∃ s' t', eox s = .next s' ∧ eox t = .next t' ∧ unreadApart s' t' := by
  have hroom := hinv.pos_lt_cap
  have hroom' : t.dec.pos < t.cfg.sysexCap := by rwa [h.pos_eq, h.cfg_eq]
  cases hopen : s.dec.sxOpen with
  | true =>
    refine ⟨_, _, eox_open hopen hroom, eox_open (h.sxOpen_eq.trans hopen) hroom', ?_⟩
    rw [h.pos_eq, h.readFrame_eq, h.inPort_eq]
    have hended : DecState.alike
        { s.dec with rs := 0x00#8, pos := 0, buf := Memory.write s.dec.buf s.dec.pos 0xF7#8 }
        { t.dec with rs := 0x00#8, pos := 0, buf := Memory.write t.dec.buf s.dec.pos 0xF7#8 } :=
      DecState.alike_of_pos_zero rfl rfl rfl h.inPort_eq.symm h.dstat_eq.symm
    exact (h.setDec hended).emit _
  | false =>
    exact ⟨_, _, eox_closed hopen, eox_closed (h.sxOpen_eq.trans hopen), h.setDec h.closeFrame⟩

/-- A status byte that opens a frame overwrites what was unread of it. -/
theorem unreadApart.frameOpened {s t : State} (h : unreadApart s t) (rs b : Byte) (length : Nat) :
    unreadApart (frameOpened rs b length s) (frameOpened rs b length t) := by
  refine h.setDec ⟨rfl, rfl, h.inPort_eq.symm, ?_, fun _ => rfl, fun a ha => ?_⟩
  · simp only [h.sxOpen_eq, h.dstat_eq]
  · have ha : a = 0 := Nat.lt_one_iff.1 ha
    rw [ha]
    exact (Memory.read_write_same _ _ _).trans (Memory.read_write_same _ _ _).symm

/-- `F6` leaves nothing to read (R125). -/
theorem unreadApart.tuneRequest {s t : State} (h : unreadApart s t) :
    unreadApart (scStatus 0xF6#8 s) (scStatus 0xF6#8 t) := by
  have habort : unreadApart (sysexAbort s) (sysexAbort t) := by
    have ⟨_, hrs, hpos, hport, hdstat, hexp, hread⟩ := h
    simp only [sysexAbort, h.sxOpen_eq]
    split_ifs
    · exact h.setDec ⟨hrs, hpos, hport, congrArg (· ||| sxAbortBit) hdstat, hexp, hread⟩
    · exact h
  simp only [scStatus, if_true, habort.inPort_eq]
  exact (habort.setDec habort.closeFrame).emit _

/-- A wire byte does the same to both states. -/
theorem unreadApart.wire {s t : State} (h : unreadApart s t) (hinv : s.dec.Inv s.cfg) (b : Byte) :
    ∃ s' t', exec (decodeWire b) s = .next s' ∧ exec (decodeWire b) t = .next t'
      ∧ unreadApart s' t' := by
  rcases exec_wire_by_frame b with ⟨_, e⟩ | ⟨_, e⟩ | ⟨_, e⟩ | ⟨_, e⟩ | ⟨_, e⟩
  · refine ⟨_, _, e s, e t, ?_⟩
    simp only [realTime, h.inPort_eq]
    exact h.emit _
  · obtain ⟨n, hn, e'⟩ := e s
    obtain ⟨m, hm, e''⟩ := e t
    rw [h.cfg_eq, hn] at hm
    cases hm
    exact ⟨_, _, e', e'', h.frameOpened _ b n⟩
  · exact ⟨_, _, e s, e t, h.tuneRequest⟩
  · rw [e, e]; exact h.eox hinv
  · rw [e, e]; exact h.dataByte hinv b

/-! ### Instructions -/

/-- A control event of DEC does the same to both states: what it writes is the same in both, and it reads
`DSTAT` alone. -/
theorem unreadApart.decControl {s t : State} (h : unreadApart s t) {i : Instr}
    (hi : i ∈ [Instr.ctlDecReset, .ctlDecRxError, .ctlDecInRouteReset, .ctlDecDstatClear,
      .ctlDecStatusRead]) :
    ∃ s' t', exec i s = .next s' ∧ exec i t = .next t' ∧ unreadApart s' t' := by
  have ⟨_, hrs, hpos, hport, hdstat, hexp, hread⟩ := h
  simp only [List.mem_cons, List.not_mem_nil, or_false] at hi
  rcases hi with rfl | rfl | rfl | rfl | rfl <;> refine ⟨_, _, rfl, rfl, ?_⟩
  · exact h.setDec ⟨rfl, rfl, rfl, rfl, fun _ => rfl, fun _ _ => rfl⟩
  · exact h.setDec h.closeFrame
  · have hreset : DecState.alike { s.dec with inPort := 1 } { t.dec with inPort := 1 } :=
      ⟨hrs, hpos, rfl, hdstat, hexp, hread⟩
    exact h.setDec hreset
  · have hcleared : s.dec.clearStatus.alike t.dec.clearStatus :=
      ⟨hrs, hpos, hport, rfl, hexp, hread⟩
    exact h.setDec hcleared
  · rw [h.dstat_eq]
    exact h.returnDec _

/-- Every instruction of DEC does the same to both states. -/
theorem unreadApart.exec_dec {s t : State} (h : unreadApart s t) (hinv : s.dec.Inv s.cfg) {i : Instr}
    (hi : i.agent = .dec) :
    ∃ s' t', exec i s = .next s' ∧ exec i t = .next t' ∧ unreadApart s' t' := by
  rcases instr_cases i with ⟨b, rfl, _⟩ | ⟨c, hc⟩ | hcontrol
  · exact h.wire hinv b
  · rw [← encode_agent, hc] at hi
    cases hi
  · refine h.decControl ?_
    simp only [List.mem_cons, List.not_mem_nil, or_false] at hcontrol ⊢
    rcases hcontrol with rfl | rfl | rfl | rfl | rfl | rfl | rfl | rfl | rfl | rfl | rfl
    iterate 5 simp
    all_goals cases hi

/-- Settles O56. What an instruction of ENC does is found from its view, which is the same in both
states. -/
theorem unreadBufferIsUnobservable : Obligations.UnreadBufferIsUnobservable := by
  intro i s t s' hinv ht halike hexec
  have h : unreadApart s t := ⟨ht, halike⟩
  cases hagent : i.agent with
  | dec =>
    obtain ⟨u, t', hs, ht', hapart⟩ := h.exec_dec hinv.1 hagent
    rw [hs] at hexec
    cases hexec
    exact ⟨t', ht', hapart⟩
  | enc =>
    rw [exec_graftEnc hagent, mapNext_eq_next] at hexec
    obtain ⟨u, hu, rfl⟩ := hexec
    exact ⟨t.graftEnc u, by rw [exec_graftEnc hagent, h.encView_eq, hu]; rfl, h.graftEnc u⟩

end Sys2Proof.Machine
end
